-- ==== Sys2Proof/Word.lean ====
section
/-! DEFINITION. The word and byte types of the engine (00_scope.md R7, R9: `WORD` is 32 bits, a byte is 8 bits). -/

namespace Sys2Proof

/-- A byte (R9). -/
abbrev Byte := BitVec 8

/-- A 32-bit unsigned word (R7, R10); its `+` and `*` wrap modulo 2^32. -/
abbrev Word := BitVec 32

end Sys2Proof
end

