-- ==== Sys2Proof/Syntax.lean ====
section
/-! DEFINITION. The commands of the engine, one constructor per row of spec/opcode_table.json (30_encoding.md R83). -/

namespace Sys2Proof

/-- A decoded command (30_encoding.md R83, R84). The only operand in a command word is APPEND's byte count
`n = cmd[9:8] + 1` (R81); every other operand is a register the command names implicitly. -/
inductive Instr where
  /-- NOP, 45_commands.md R207. -/
  | nop
  /-- START_V1, 45_commands.md R201. -/
  | startV1
  /-- START_V2, 45_commands.md R202: the salt is the one the host injected. -/
  | startV2
  /-- START_V2R, 45_commands.md R203: the salt is drawn from the random port. -/
  | startV2R
  /-- APPEND `n`, 45_commands.md R204. -/
  | append (n : Nat)
  /-- FINALIZE, 45_commands.md R205. -/
  | finalize
  /-- ABORT, 45_commands.md R206. -/
  | abort
deriving DecidableEq, Repr

end Sys2Proof
end

