-- ==== Sys2Proof/Decode.lean ====
section
/-! DEFINITION. Decoding of a CMD word, total on every 32-bit word (30_encoding.md R80 to R86), the encoder written from the
same table, and the table itself as masks and matches (R83). -/

namespace Sys2Proof

/-- Why a word is illegal (30_encoding.md R85). All three are the one error ILLEGAL of 60_exceptions.md R230. -/
inductive DecodeError where
  /-- `RSV` = word[31:10] is not 0. -/
  | reservedBits
  /-- `OP` is in 0x05..0xFF. -/
  | reservedOpcode
  /-- NOP, FINALIZE or ABORT with `F` != 0, or START with `F` = 2. -/
  | reservedField
deriving DecidableEq, Repr

/-- `OP` = word[7:0] (30_encoding.md R80). -/
def opField (w : Word) : BitVec 8 := w.extractLsb' 0 8

/-- `F` = word[9:8] (30_encoding.md R80). -/
def fField (w : Word) : BitVec 2 := w.extractLsb' 8 2

/-- `RSV` = word[31:10] (30_encoding.md R80). -/
def rsvField (w : Word) : BitVec 22 := w.extractLsb' 10 22

/-- The command of a word, or the reason it is illegal (30_encoding.md R84, R85). -/
def decode (w : Word) : Except DecodeError Instr :=
  if rsvField w ≠ 0 then .error .reservedBits
  else if opField w = 0x00 then
    if fField w = 0 then .ok .nop else .error .reservedField
  else if opField w = 0x01 then
    if fField w = 0 then .ok .startV1
    else if fField w = 1 then .ok .startV2
    else if fField w = 3 then .ok .startV2R
    else .error .reservedField
  else if opField w = 0x02 then .ok (.append ((fField w).toNat + 1))
  else if opField w = 0x03 then
    if fField w = 0 then .ok .finalize else .error .reservedField
  else if opField w = 0x04 then
    if fField w = 0 then .ok .abort else .error .reservedField
  else .error .reservedOpcode

/-- The word of a well-formed command (30_encoding.md R83, R87: APPEND `n` is `0x00000002 + ((n-1) << 8)`). -/
def encode : Instr → Word
  | .nop => 0x00000000
  | .startV1 => 0x00000001
  | .startV2 => 0x00000101
  | .startV2R => 0x00000301
  | .append n => 0x00000002 + (BitVec.ofNat 32 (n - 1) <<< 8)
  | .finalize => 0x00000003
  | .abort => 0x00000004

/-- The mnemonic of a command, as spec/opcode_table.json spells it. -/
def Instr.mnemonic : Instr → String
  | .nop => "NOP"
  | .startV1 => "START_V1"
  | .startV2 => "START_V2"
  | .startV2R => "START_V2R"
  | .append _ => "APPEND"
  | .finalize => "FINALIZE"
  | .abort => "ABORT"

/-- A row of the opcode map (30_encoding.md R83). -/
structure OpcodeRow where
  /-- The row's mnemonic. -/
  mnemonic : String
  /-- The bits a word must have where `mask` is 1. -/
  matchBits : Word
  /-- The bits the row fixes. -/
  mask : Word
deriving DecidableEq, Repr

/-- "A word selects a command when `(word & mask) = match`" (30_encoding.md R83). -/
def OpcodeRow.selects (r : OpcodeRow) (w : Word) : Bool := w &&& r.mask == r.matchBits

/-- The opcode map of 30_encoding.md R83, in its order. -/
def opcodeTable : List OpcodeRow :=
  [⟨"NOP", 0x00000000, 0xFFFFFFFF⟩,
   ⟨"START_V1", 0x00000001, 0xFFFFFFFF⟩,
   ⟨"START_V2", 0x00000101, 0xFFFFFFFF⟩,
   ⟨"START_V2R", 0x00000301, 0xFFFFFFFF⟩,
   ⟨"APPEND", 0x00000002, 0xFFFFFCFF⟩,
   ⟨"FINALIZE", 0x00000003, 0xFFFFFFFF⟩,
   ⟨"ABORT", 0x00000004, 0xFFFFFFFF⟩]

/-- What the decoder reads from the number `w` of a table row's bits: a command is one 32-bit word (30_encoding.md R82), so a
number that does not fit in 32 bits, or a row that says it is wider, is no command (log entry 16). -/
def decodeTableWord (nbits w : Nat) : Option Instr :=
  if nbits ≤ 32 ∧ w < 2 ^ 32 then
    match decode (BitVec.ofNat 32 w) with
    | .ok i => some i
    | .error _ => none
  else none

end Sys2Proof
end

