-- ==== Sys2Proof/Machine/Operands.lean ====
section
/-! DEFINITION. How bytes become words and back, and where a command's data bytes lie: little-endian everywhere
(20_memory.md R51, R52, R53; 30_encoding.md R81; 10_state.md R30). -/

namespace Sys2Proof.Machine

/-- The word whose bytes, lowest first, are `b0 b1 b2 b3` (20_memory.md R52). -/
def le32 (b0 b1 b2 b3 : Byte) : Word :=
  b0.setWidth 32 + (b1.setWidth 32 <<< 8) + (b2.setWidth 32 <<< 16) + (b3.setWidth 32 <<< 24)

/-- Byte `b` of a word, byte 0 being bits [7:0] (20_memory.md R52 `le32_bytes`; 10_state.md R30 for DIN). -/
def wordByte (w : Word) (b : Nat) : Byte := w.extractLsb' (8 * b) 8

/-- `le32(B, p)` (20_memory.md R52). -/
def wordAt {n : Nat} (B : Vector Byte n) (p : Nat) (h : p + 4 ≤ n) : Word := le32 B[p] B[p + 1] B[p + 2] B[p + 3]

/-- `B[p .. p+4) <- le32_bytes(w)` (20_memory.md R52, R53). -/
def setWordAt {n : Nat} (B : Vector Byte n) (p : Nat) (w : Word) (h : p + 4 ≤ n) : Vector Byte n :=
  (((B.set p (wordByte w 0)).set (p + 1) (wordByte w 1)).set (p + 2) (wordByte w 2)).set (p + 3) (wordByte w 3)

end Sys2Proof.Machine
end

