-- ==== Sys2Proof/Machine/Primitives.lean ====
section
/-! DEFINITION. The numeric constants (00_scope.md R8) and the mixing primitives (42_mixing_primitives.md): pure functions of
32-bit words. -/

namespace Sys2Proof.Machine

/-- V1 initial state and base of the V2 initial state (00_scope.md R8). -/
def constIV : Word := 0xdeadbeef

/-- V2 initial-state increment (00_scope.md R8). -/
def constSTEP : Word := 0x12345678

/-- V1 mix, and first multiply of enhancedMix (00_scope.md R8). -/
def constC1 : Word := 0x5bd1e995

/-- Second multiply of enhancedMix (00_scope.md R8). -/
def constC2 : Word := 0x1b873593

/-- Third multiply of enhancedMix (00_scope.md R8). -/
def constC3 : Word := 0xcc9e2d51

/-- Rotate left by `n mod 32` (42_mixing_primitives.md R140). -/
def rotl32 (x : Word) (n : Nat) : Word :=
  if n % 32 = 0 then x else (x <<< (n % 32)) ||| (x >>> (32 - n % 32))

/-- Rotate right by `n mod 32` (42_mixing_primitives.md R141). -/
def rotr32 (x : Word) (n : Nat) : Word :=
  if n % 32 = 0 then x else (x >>> (n % 32)) ||| (x <<< (32 - n % 32))

/-- The V1 mixing step; both operands read the same `s` (42_mixing_primitives.md R144). -/
def mix1 (s : Word) : Word := (s * constC1) ^^^ rotl32 s 13

/-- The source's enhancedMix, six sequential steps (42_mixing_primitives.md R145). -/
def emix (x : Word) : Word :=
  let x := x ^^^ rotl32 x 13
  let x := x * constC1
  let x := x ^^^ rotr32 x 15
  let x := x * constC2
  let x := x ^^^ rotl32 x 7
  x * constC3

end Sys2Proof.Machine
end

