-- ==== Sys2Proof/Machine/State.lean ====
section
/-! DEFINITION. The state of the engine, exactly the elements of 10_state.md R20, with the model's own fields for what
surrounds it (the host's accesses, what reads returned, the base address, the random source); the reasons a step can
stop; and the state after reset (10_state.md R38). -/

namespace Sys2Proof.Machine

/-- `PHASE` (10_state.md R21): IDLE 0, ABSORB 1, DONE 2. The value 3 "is never held" (R32) and has no constructor (log entry 7). -/
inductive Phase where
  /-- No computation has been started since reset or ABORT. -/
  | idle
  /-- A computation is started and accepts input and FINALIZE. -/
  | absorb
  /-- The last computation has finished and `DIGEST` holds its result. -/
  | done
deriving DecidableEq, Repr

/-- `VAR` (10_state.md R22): V1 0, V2 1. -/
inductive Variant where
  /-- One state word, fixed salt, 5 rounds (00_scope.md R2). -/
  | v1
  /-- Sixteen state words, chosen salt, 12 rounds (00_scope.md R2). -/
  | v2
deriving DecidableEq, Repr

/-- `ERR` (60_exceptions.md R230). The codes 4..7 are "never recorded" and have no constructor (log entry 7). -/
inductive ErrCode where
  /-- 0 NONE: no error since reset or ABORT. -/
  | noError
  /-- 1 ILLEGAL: a CMD write whose word decodes to ILLEGAL. -/
  | illegal
  /-- 2 SEQUENCE: APPEND or FINALIZE while `PHASE` != ABSORB. -/
  | sequence
  /-- 3 LOCKED: a write to SALT0..SALT3 while `PHASE` = ABSORB. -/
  | locked
deriving DecidableEq, Repr

/-- What the engine takes from outside (20_memory.md R54, R65; 70_reset_and_hazards.md R260). Addresses are the platform's,
offset 0x00 of the window being at `BASE` (20_memory.md R50); the size is in bytes, so that an access outside the contract
of 20_memory.md R56 can be written down and is refused. -/
inductive Input where
  /-- A host read of `size` bytes at `addr`. -/
  | read (addr size : Nat)
  /-- A host write of `v`, `size` bytes wide, at `addr`. -/
  | write (addr size : Nat) (v : Word)
  /-- The `rst` port is asserted. -/
  | rst
deriving DecidableEq, Repr

/-- Why the machine is stuck. -/
inductive Fault where
  /-- START_V2R without its sixteen random bytes: "the engine is stuck in a hang that only reset ends" (70_reset_and_hazards.md
  R276; 93_implementation_defined.md I19). Raised by `execStartV2R`, and kept by a step unless the next input is reset.
  Safe: the spec has no step here either (log entry 5). -/
  | randomStall
deriving DecidableEq, Repr

/-- Why the model has no step. -/
inductive Refusal where
  /-- A command the model gives no meaning; no arm of `exec` uses it. Safe. -/
  | notModelled (mnemonic : String)
  /-- An access that is not 32 bits wide, not aligned, or not in the window: "outside the interface contract and is refused (no
  step)" (20_memory.md R56; 60_exceptions.md R236; 93_implementation_defined.md I13). Raised by `State.readAccess` and
  `State.writeAccess`. Safe: the spec gives no step (log entry 9). -/
  | outsideInterface
  /-- `append n` with `n` outside 1..4, which no CMD word encodes (30_encoding.md R81). Raised by `execAppend`, never through a
  step. Safe (log entry 13). -/
  | noSuchByteCount
deriving DecidableEq, Repr

/-- The engine's state (10_state.md R20), then the model's own fields. -/
structure State where
  /-- `PHASE`, R21. -/
  phase : Phase
  /-- `VAR`, R22. -/
  var : Variant
  /-- `ERR`, R23. -/
  err : ErrCode
  /-- `SALT[0..15]`, R24. -/
  salt : Vector Byte 16
  /-- `ST[0..15]`, R25. -/
  st : Vector Word 16
  /-- `BUF[0..31]`, R26. -/
  buf : Vector Byte 32
  /-- `FILL`, 5 bits, R27. -/
  fill : Fin 32
  /-- `LEN`, R28. -/
  len : BitVec 64
  /-- `DIGEST[0..31]`, R29. -/
  digest : Vector Byte 32
  /-- `DIN`, R30. -/
  din : Word
  /-- The model's own: the parameter `BASE` (20_memory.md R50; log entry 3). -/
  base : Nat
  /-- The model's own: the inputs still to come, oldest first (20_memory.md R65; log entry 1). -/
  inputs : List Input
  /-- The model's own: the data the reads performed so far returned, oldest first (20_memory.md R57; log entry 2). -/
  replies : List Word
  /-- The model's own: random bytes the platform is known to deliver next, in draw order (40_salt.md R103; log entry 4). -/
  rngQueued : List Byte
  /-- The model's own: the source goes on, with free bytes, when `rngQueued` is used up (70_reset_and_hazards.md R276; log entry 4). -/
  rngMore : Bool
  /-- The model's own: how many bytes were drawn so far; it only selects the next free value (log entry 4). -/
  rngDrawn : Nat
deriving DecidableEq, Repr

/-- The state after reset: 10_state.md R38 for every state element; the model's own fields as log entries 1 to 4 say. -/
def State.reset : State where
  phase := .idle
  var := .v1
  err := .noError
  salt := Vector.replicate 16 0
  st := Vector.replicate 16 0
  buf := Vector.replicate 32 0
  fill := 0
  len := 0
  digest := Vector.replicate 32 0
  din := 0
  base := 0
  inputs := []
  replies := []
  rngQueued := []
  rngMore := true
  rngDrawn := 0

/-- The outcome of a command or of a step. -/
abbrev Result := Host.Outcome State Fault Refusal

end Sys2Proof.Machine
end

