-- ==== Sys2Proof/Machine/Finalize.lean ====
section
/-! DEFINITION. The finalizer rounds, the serializers, the salt XOR and the digest (44_finalize.md). -/

namespace Sys2Proof.Machine

/-- One V1 round: XOR with the word rotated by 17, then mix (44_finalize.md R180). -/
def roundV1 (x : Word) : Word := mix1 (x ^^^ rotl32 x 17)

/-- The 5 V1 rounds (44_finalize.md R181). -/
@[irreducible] def roundsV1 (x : Word) : Word := Nat.fold 5 (fun _ _ x => roundV1 x) x

/-- One V2 round, sequential and in place: `ST[k] <- emix(ST[k] xor ST[(k+1) mod 16])` for `k = 0..15`
(44_finalize.md R182, R183; 90_conflicts.md C2). -/
@[irreducible] def roundV2 (st : Vector Word 16) : Vector Word 16 :=
  Nat.fold 16 (fun k _ st => st.set k (emix (st[k] ^^^ st[(k + 1) % 16]))) st

/-- The 12 V2 rounds (44_finalize.md R184). -/
@[irreducible] def roundsV2 (st : Vector Word 16) : Vector Word 16 := Nat.fold 12 (fun _ _ st => roundV2 st) st

/-- `serialize_v1(s)`: slot `m` holds the value, which is rotated left by 8 between slots; slot 0 unrotated
(44_finalize.md R185; 90_conflicts.md C5). -/
@[irreducible] def serializeV1 (x : Word) : Vector Byte 32 :=
  (Nat.fold 8 (fun m _ (acc : Vector Byte 32 × Word) =>
    (setWordAt acc.1 (4 * m) acc.2 (by omega), rotl32 acc.2 8)) (Vector.replicate 32 0, x)).1

/-- `serialize_v2()`: the words `ST[(i/4) mod 16]` for `i = 0, 4, .., 28`, little-endian (44_finalize.md R186). -/
@[irreducible] def serializeV2 (st : Vector Word 16) : Vector Byte 32 :=
  Nat.fold 8 (fun m _ out => setWordAt out (4 * m) st[m % 16] (by omega)) (Vector.replicate 32 0)

/-- Output bytes 0..15 XORed with the salt, 16..31 untouched (44_finalize.md R187). -/
@[irreducible] def saltXor (salt : Vector Byte 16) (out : Vector Byte 32) : Vector Byte 32 :=
  Nat.fold 16 (fun p _ out => out.set p (out[p] ^^^ salt[p])) out

/-- `finalize_digest()`: the variant's rounds, its serializer, the salt XOR, `DIGEST <- out`; `ST` keeps the state after the last
round, in V1 only `ST[0]` being written (44_finalize.md R188; 10_state.md R25). -/
def State.finalizeDigest (s : State) : State :=
  match s.var with
  | .v1 =>
    let x := roundsV1 s.st[0]
    { s with st := s.st.set 0 x, digest := saltXor s.salt (serializeV1 x) }
  | .v2 =>
    let st := roundsV2 s.st
    { s with st := st, digest := saltXor s.salt (serializeV2 st) }

end Sys2Proof.Machine
end

