-- ==== Sys2Proof/Machine/Absorb.lean ====
section
/-! DEFINITION. The initial state and the block absorber (43_absorb.md). Loops run their index upwards, each iteration seeing
the writes of the ones before it (00_scope.md R12). The loops are irreducible, so that comparing two states never runs one. -/

namespace Sys2Proof.Machine

/-- `init_v1()`: `ST[0] <- IV`, the other words 0 (43_absorb.md R160). -/
def initV1 : Vector Word 16 := (Vector.replicate 16 0).set 0 constIV

/-- `init_v2()`: `ST[0] <- IV xor le32(SALT, 0)`, then `ST[k] <- ST[k-1] + STEP` for `k = 1..15` (43_absorb.md R161). -/
@[irreducible] def initV2 (salt : Vector Byte 16) : Vector Word 16 :=
  Nat.fold 15 (fun i _ st => st.set (i + 1) (st[i] + constSTEP))
    ((Vector.replicate 16 0).set 0 (constIV ^^^ wordAt salt 0 (by omega)))

/-- `absorb_v1(B, i)` on the one state word: per sub-word `j`, XOR in the word rotated by `(j + (i mod 32)) mod 32`, then mix
(43_absorb.md R162; 90_conflicts.md C1). -/
@[irreducible] def absorbV1 (B : Vector Byte 32) (i : Nat) (x : Word) : Word :=
  Nat.fold 8 (fun j _ x => mix1 (x ^^^ rotl32 (wordAt B (4 * j) (by omega)) ((j + i % 32) % 32))) x

/-- The inner loop of `absorb_v2` for one sub-word, `c` being `w + zext_32(SALT[j mod 16])`: for `k = 0..15` in place,
`ST[k] <- ST[k] xor emix(c + ST[(k+1) mod 16])`, then `ST[k] <- emix(ST[k])` (43_absorb.md R164, R165). -/
@[irreducible] def absorbWordV2 (c : Word) (st : Vector Word 16) : Vector Word 16 :=
  Nat.fold 16 (fun k _ st => st.set k (emix (st[k] ^^^ emix (c + st[(k + 1) % 16])))) st

/-- `absorb_v2(B)`: the sub-words `j = 0..7` in order, each with the salt byte `j mod 16`, zero-extended (43_absorb.md R164). -/
@[irreducible] def absorbV2 (salt : Vector Byte 16) (B : Vector Byte 32) (st : Vector Word 16) : Vector Word 16 :=
  Nat.fold 8 (fun j _ st => absorbWordV2 (wordAt B (4 * j) (by omega) + (salt[j % 16]).setWidth 32) st) st

/-- `absorb_block(B)`: the absorber of the variant; in V1 the block offset `i` has `i mod 32 = 0` (43_absorb.md R166;
41_padder.md R130; log entry 14), and only `ST[0]` is written (10_state.md R25). -/
def absorbBlock (v : Variant) (salt : Vector Byte 16) (B : Vector Byte 32) (st : Vector Word 16) : Vector Word 16 :=
  match v with
  | .v1 => st.set 0 (absorbV1 B 0 st[0])
  | .v2 => absorbV2 salt B st

end Sys2Proof.Machine
end

