-- ==== Sys2Proof/Config.lean ====
section
/-! DEFINITION. What the spec leaves to the environment as a value with no law: the random source `RNG`
(00_scope.md R7, 40_salt.md R103). The other two open parameters are not here: `BASE` is a field of State that no step
changes (log entry 3), and `CMD_LATENCY` has no place in a model without time (log entry 10). -/

namespace Sys2Proof

/-- The `n`-th byte the random source delivers when the platform says nothing about it: a FREE VALUE with no body, "a free
input with no law" (00_scope.md R11, 40_salt.md R103; 93_implementation_defined.md I5, I18; log entry 4). -/
opaque Config.rngByte : Nat → Byte

end Sys2Proof
end

