-- ==== Sys2Proof/Machine/Ops.lean ====
section
/-! DEFINITION. The named operations on the state that commands and accesses share: recording an error (the whole of this
hardware's exception entry), the reset values, register writes, the random draw, and the model's own bookkeeping of
inputs and replies. -/

namespace Sys2Proof.Machine

/-- `raise Error(code)`: the first error since reset or ABORT is kept, and nothing else changes (60_exceptions.md R231). A
recorded error is not a trap: no state is saved and nothing jumps (R234), so there is no return either (R238). -/
def State.raiseError (s : State) (code : ErrCode) : State :=
  if s.err = .noError then { s with err := code } else s

/-- Every state element at its reset value (10_state.md R38), as reset (70_reset_and_hazards.md R260) and ABORT
(45_commands.md R206) leave it; what surrounds the engine stays. -/
def State.resetEngine (s : State) : State :=
  { s with
    phase := .idle
    var := .v1
    err := .noError
    salt := Vector.replicate 16 0
    st := Vector.replicate 16 0
    buf := Vector.replicate 32 0
    fill := 0
    len := 0
    digest := Vector.replicate 32 0
    din := 0 }

/-- `DIN <- v` (20_memory.md R62). -/
def State.writeDin (s : State) (v : Word) : State := { s with din := v }

/-- `SALT[4w .. 4w+4) <- le32_bytes(v)` (20_memory.md R53, R61). -/
def State.writeSaltWord (s : State) (w : Fin 4) (v : Word) : State :=
  { s with salt := setWordAt s.salt (4 * w.val) v (by omega) }

/-- The byte the `b`-th coming draw delivers: the platform's queued bytes first, then free bytes (40_salt.md R103; log entry 4). -/
def State.drawnByte (s : State) (b : Nat) : Byte :=
  s.rngQueued.getD b (Config.rngByte (s.rngDrawn + b))

/-- All sixteen draws of START_V2R are available (70_reset_and_hazards.md R276: "a step only with all sixteen draws available"). -/
def State.drawsReady (s : State) : Bool := s.rngMore || 16 ≤ s.rngQueued.length

/-- The sixteen drawn bytes, the first in byte 0 (40_salt.md R103). -/
@[irreducible] def State.drawnSalt (s : State) : Vector Byte 16 := Vector.ofFn fun b => s.drawnByte b.val

/-- `for b in 0..15: SALT[b] <- draw_byte()`, the first drawn byte in `SALT[0]` (40_salt.md R103). -/
def State.drawSalt (s : State) : State :=
  { s with
    salt := s.drawnSalt
    rngQueued := s.rngQueued.drop 16
    rngDrawn := s.rngDrawn + 16 }

/-- The inputs left after the one being served (log entry 1). -/
def State.withInputs (s : State) (rest : List Input) : State := { s with inputs := rest }

/-- A read access returns `v` to the host (20_memory.md R57; log entry 2). -/
def State.reply (s : State) (v : Word) : State := { s with replies := s.replies ++ [v] }

end Sys2Proof.Machine
end

