-- ==== Sys2Proof/Machine/Padder.lean ====
section
/-! DEFINITION. The streaming padder and its block buffer (41_padder.md R121 to R125). -/

namespace Sys2Proof.Machine

/-- The first block as START leaves it: all zero, then `BUF[p] <- SALT[p]` for `p = 0..15` (41_padder.md R121). -/
@[irreducible] def saltBlock (salt : Vector Byte 16) : Vector Byte 32 :=
  Nat.fold 16 (fun p _ buf => buf.set p salt[p]) (Vector.replicate 32 0)

/-- `start_buffer()`: the salt in bytes 0..15, zeros after it, `FILL` 16 (41_padder.md R121). -/
def State.startBuffer (s : State) : State := { s with buf := saltBlock s.salt, fill := 16 }

/-- `absorb_block(BUF)`, then `BUF` zeroed and `FILL` 0 (41_padder.md R122, R125). -/
def State.absorbBuffer (s : State) : State :=
  { s with
    st := absorbBlock s.var s.salt s.buf s.st
    buf := Vector.replicate 32 0
    fill := 0 }

/-- `BUF[FILL] <- x` (41_padder.md R122). -/
def State.writeBuf (s : State) (x : Byte) : State := { s with buf := s.buf.set s.fill.val x }

/-- `append_byte(x)`: `FILL` is raised in 6 bits, and reaching 32 absorbs the block (41_padder.md R122). -/
def State.appendByte (s : State) (x : Byte) : State :=
  if h : s.fill.val + 1 < 32 then
    { s.writeBuf x with fill := ⟨s.fill.val + 1, h⟩ }
  else
    (s.writeBuf x).absorbBuffer

/-- `for b in 0..n-1 : append_byte(DIN[8b+7 : 8b])` (41_padder.md R124). -/
def State.appendBytes (s : State) (n : Nat) : State := Nat.fold n (fun b _ t => t.appendByte (wordByte t.din b)) s

/-- `LEN <- (LEN + n) mod 2^64` (41_padder.md R124; 10_state.md R28). -/
def State.addLen (s : State) (n : Nat) : State := { s with len := s.len + BitVec.ofNat 64 n }

/-- `append_din(n)`: the bytes `DIN[7:0]` to `DIN[8n-1:8n-8]` in order, then the length (41_padder.md R124). -/
def State.appendDin (s : State) (n : Nat) : State := (s.appendBytes n).addLen n

/-- `pad_final()`: the partial block, already zero-filled, is absorbed iff `FILL` != 0 (41_padder.md R125). -/
def State.padFinal (s : State) : State := if s.fill = 0 then s else s.absorbBuffer

end Sys2Proof.Machine
end

