-- ==== Sys2Proof/Machine/Salt.lean ====
section
/-! DEFINITION. The salt generator (40_salt.md). START_V2's salt is the one already in `SALT` (R102); START_V2R's is
`State.drawSalt` (R103). -/

namespace Sys2Proof.Machine

/-- The V1 salt: `SALT[i] <- (i * 17) mod 256` (40_salt.md R100). -/
@[irreducible] def v1Salt : Vector Byte 16 := Vector.ofFn fun i => BitVec.ofNat 8 (i.val * 17)

/-- Write the V1 salt (40_salt.md R100). -/
def State.setV1Salt (s : State) : State := { s with salt := v1Salt }

end Sys2Proof.Machine
end

