-- ==== Sys2Proof/Machine/Commands.lean ====
section
/-! DEFINITION. The meaning of each command (45_commands.md R200 to R207), one definition per row of the opcode table. -/

namespace Sys2Proof.Machine

/-- The end every START shares: `LEN <- 0`, `DIGEST <- 0`, `PHASE <- ABSORB` (45_commands.md R201, R202, R203). -/
def State.openComputation (s : State) : State :=
  { s with len := 0, digest := Vector.replicate 32 0, phase := .absorb }

/-- `VAR <- V1`, `init_v1()` (45_commands.md R201). -/
def State.selectV1 (s : State) : State := { s with var := .v1, st := initV1 }

/-- `VAR <- V2`, `init_v2()` from the salt as it stands (45_commands.md R202, R203). -/
def State.selectV2 (s : State) : State := { s with var := .v2, st := initV2 s.salt }

/-- `PHASE <- DONE` (45_commands.md R205). -/
def State.closeComputation (s : State) : State := { s with phase := .done }

/-- NOP: nothing, in every phase (45_commands.md R207). -/
def execNop (s : State) : Result := .next s

/-- START_V1: the V1 salt, `VAR` and `ST`, the buffer, then an open computation; accepted in every phase (45_commands.md R201). -/
def execStartV1 (s : State) : Result := .next s.setV1Salt.selectV1.startBuffer.openComputation

/-- START_V2: as START_V1, with the salt kept as it stands (45_commands.md R202; 40_salt.md R102). -/
def execStartV2 (s : State) : Result := .next s.selectV2.startBuffer.openComputation

/-- START_V2R: as START_V2, with a drawn salt; without sixteen draws it never completes (45_commands.md R203;
70_reset_and_hazards.md R276). -/
def execStartV2R (s : State) : Result :=
  if s.drawsReady then .next s.drawSalt.selectV2.startBuffer.openComputation else .fault .randomStall

/-- APPEND `n`: SEQUENCE outside ABSORB (45_commands.md R200), otherwise `append_din(n)` (R204). -/
def execAppend (n : Nat) (s : State) : Result :=
  if 1 ≤ n ∧ n ≤ 4 then
    if s.phase = .absorb then .next (s.appendDin n) else .next (s.raiseError .sequence)
  else .refused .noSuchByteCount

/-- FINALIZE: SEQUENCE outside ABSORB (45_commands.md R200), otherwise pad, finalize, `PHASE <- DONE` (R205). -/
def execFinalize (s : State) : Result :=
  if s.phase = .absorb then .next s.padFinal.finalizeDigest.closeComputation
  else .next (s.raiseError .sequence)

/-- ABORT: every state element takes its reset value, in every phase (45_commands.md R206; 70_reset_and_hazards.md R261). -/
def execAbort (s : State) : Result := .next s.resetEngine

end Sys2Proof.Machine
end

