-- ==== Sys2Proof/Machine/Dispatch.lean ====
section
/-! DEFINITION. One arm per command (45_commands.md R200: "perform c"). -/

namespace Sys2Proof.Machine

def exec (i : Instr) (s : State) : Host.Outcome State Fault Refusal :=
  match i with
  | .nop => Sys2Proof.Machine.execNop s
  | .startV1 => Sys2Proof.Machine.execStartV1 s
  | .startV2 => Sys2Proof.Machine.execStartV2 s
  | .startV2R => Sys2Proof.Machine.execStartV2R s
  | .append n => Sys2Proof.Machine.execAppend n s
  | .finalize => Sys2Proof.Machine.execFinalize s
  | .abort => Sys2Proof.Machine.execAbort s

end Sys2Proof.Machine
end

