-- ==== Sys2Proof/Machine/Flags.lean ====
section
/-! DEFINITION. The control state as numbers: the codes of PHASE, VAR and ERR, the STATUS word (10_state.md R34) and the two
level outputs (20_memory.md R54; 60_exceptions.md R239). The engine has no other flags (10_state.md R34). -/

namespace Sys2Proof.Machine

/-- `PHASE` as its 2-bit value (10_state.md R20). -/
def Phase.code : Phase → Word
  | .idle => 0
  | .absorb => 1
  | .done => 2

/-- `VAR` as its 1-bit value (10_state.md R20, R22). -/
def Variant.code : Variant → Word
  | .v1 => 0
  | .v2 => 1

/-- `ERR` as its 3-bit value (60_exceptions.md R230). -/
def ErrCode.code : ErrCode → Word
  | .noError => 0
  | .illegal => 1
  | .sequence => 2
  | .locked => 3

/-- STATUS = `PHASE + (VAR << 2) + (ERR << 4) + (FILL << 8)` (10_state.md R34; 20_memory.md R57). -/
def State.statusWord (s : State) : Word :=
  s.phase.code + (s.var.code <<< 2) + (s.err.code <<< 4) + (BitVec.ofNat 32 s.fill.val <<< 8)

/-- The `done` output: 1 while `PHASE` = DONE (20_memory.md R54). -/
def State.doneOut (s : State) : Bool := s.phase == .done

/-- The `err` output: 1 while `ERR` != 0 (20_memory.md R54; 60_exceptions.md R231). -/
def State.errOut (s : State) : Bool := s.err != .noError

end Sys2Proof.Machine
end

