-- ==== Sys2Proof/Machine/Bus.lean ====
section
/-! DEFINITION. The register window and what one host access or reset does (20_memory.md R50 to R65; 45_commands.md R200;
70_reset_and_hazards.md R260, R276). -/

namespace Sys2Proof.Machine

/-- The registers of the window (20_memory.md R55; 10_state.md R37). -/
inductive Reg where
  /-- 0x00. -/
  | cmd
  /-- 0x04. -/
  | status
  /-- 0x08. -/
  | din
  /-- 0x10 + 4w. -/
  | salt (w : Fin 4)
  /-- 0x20 + 4w. -/
  | digest (w : Fin 8)
  /-- 0x40 + 4k. -/
  | state (k : Fin 16)
  /-- 0x80. -/
  | lenLo
  /-- 0x84. -/
  | lenHi
  /-- 0x0C and 0x88 .. 0xFC. -/
  | reserved
deriving DecidableEq, Repr

/-- The register at a byte offset of the window (20_memory.md R55). -/
def regAt (off : Nat) : Reg :=
  if off = 0x00 then .cmd
  else if off = 0x04 then .status
  else if off = 0x08 then .din
  else if h : 0x10 ≤ off ∧ off ≤ 0x1C then .salt ⟨(off - 0x10) / 4, by omega⟩
  else if h : 0x20 ≤ off ∧ off ≤ 0x3C then .digest ⟨(off - 0x20) / 4, by omega⟩
  else if h : 0x40 ≤ off ∧ off ≤ 0x7C then .state ⟨(off - 0x40) / 4, by omega⟩
  else if off = 0x80 then .lenLo
  else if off = 0x84 then .lenHi
  else .reserved

/-- The offset inside the window of an access the contract admits: 32 bits wide, aligned, below 0x100 (20_memory.md R56), the
window standing at `base` (R50). -/
def windowOffset (base addr size : Nat) : Option Nat :=
  if size = 4 ∧ base ≤ addr ∧ addr - base < 0x100 ∧ (addr - base) % 4 = 0 then some (addr - base) else none

/-- `MemRead`: the value of a register (20_memory.md R57). -/
def State.regRead (s : State) (r : Reg) : Word :=
  match r with
  | .cmd => 0
  | .status => s.statusWord
  | .din => s.din
  | .salt w => wordAt s.salt (4 * w.val) (by omega)
  | .digest w => wordAt s.digest (4 * w.val) (by omega)
  | .state k => s.st[k.val]
  | .lenLo => s.len.extractLsb' 0 32
  | .lenHi => s.len.extractLsb' 32 32
  | .reserved => 0

/-- `execute_command(v)`: decode first, so an illegal word records ILLEGAL in every phase (45_commands.md R200;
60_exceptions.md R237); the phase check is the command's own. -/
def State.executeCommand (s : State) (v : Word) : Result :=
  match decode v with
  | .ok i => exec i s
  | .error _ => .next (s.raiseError .illegal)

/-- `salt_write(w, v)`: refused with LOCKED in ABSORB (20_memory.md R61). -/
def State.saltWrite (s : State) (w : Fin 4) (v : Word) : State :=
  if s.phase = .absorb then s.raiseError .locked else s.writeSaltWord w v

/-- `MemWrite`: a write of `v` to a register (20_memory.md R58); read-only and reserved ones ignore it (R60). -/
def State.regWrite (s : State) (r : Reg) (v : Word) : Result :=
  match r with
  | .cmd => s.executeCommand v
  | .din => .next (s.writeDin v)
  | .salt w => .next (s.saltWrite w v)
  | .status => .next s
  | .digest _ => .next s
  | .state _ => .next s
  | .lenLo => .next s
  | .lenHi => .next s
  | .reserved => .next s

/-- A START_V2R that reset abandons has taken the bytes that were there (20_memory.md R69; log entry 5). -/
def State.takeQueuedBytes (s : State) : State :=
  { s with rngQueued := [], rngDrawn := s.rngDrawn + s.rngQueued.length }

/-- A stalled access stays pending until reset, which abandons it (70_reset_and_hazards.md R260, R276): with reset as the next
input the access ends with no effect on the engine, otherwise the machine is stuck. -/
def State.pendingUntilReset (s : State) (r : Result) : Result :=
  match r, s.inputs with
  | .fault .randomStall, .rst :: _ => .next s.takeQueuedBytes
  | r, _ => r

/-- A read access, `s` being the state with the access taken off the inputs (20_memory.md R56, R57). -/
def State.readAccess (s : State) (addr size : Nat) : Result :=
  match windowOffset s.base addr size with
  | some off => .next (s.reply (s.regRead (regAt off)))
  | none => .refused .outsideInterface

/-- A write access, `s` being the state with the access taken off the inputs (20_memory.md R56, R58). -/
def State.writeAccess (s : State) (addr size : Nat) (v : Word) : Result :=
  match windowOffset s.base addr size with
  | some off => s.pendingUntilReset (s.regWrite (regAt off) v)
  | none => .refused .outsideInterface

/-- One input served as one indivisible step (20_memory.md R64, R65); with none left the engine "holds its state and does
nothing" (60_exceptions.md R248). -/
def State.serve (s : State) : Result :=
  match s.inputs with
  | [] => .next s
  | .read addr size :: rest => (s.withInputs rest).readAccess addr size
  | .write addr size v :: rest => (s.withInputs rest).writeAccess addr size v
  | .rst :: rest => .next (s.withInputs rest).resetEngine

end Sys2Proof.Machine
end

