-- ==== Sys2Proof/Machine/Step.lean ====
section
/-! DEFINITION. One step of the machine: one input served (20_memory.md R64, R65). The engine fetches no instructions
(20_memory.md R67); its command stream is the host's writes to CMD. -/

namespace Sys2Proof.Machine

/-- One step. -/
def step (s : State) : Host.Outcome State Fault Refusal := s.serve

/-- `s` with the host's next access a write of the command word `w` to CMD, at `BASE + 0x00` (20_memory.md R55, R67; log entry 1). A
command is one 32-bit word (30_encoding.md R82), so every width a table row may give lies in it. -/
def State.withFetchWord (s : State) (_nbits w : Nat) : State :=
  { s with inputs := .write (s.base + 0x00) 4 (BitVec.ofNat 32 w) :: s.inputs }

end Sys2Proof.Machine
end

