-- ==== Sys2Proof/Machine/HostProgram.lean ====
section
/-! DEFINITION. The host-program operations and the pseudo-instructions of 30_encoding.md R87, R88, as the accesses they stand
for, the window standing at `base`. -/

namespace Sys2Proof.Machine

/-- The byte offset of a register (20_memory.md R55); for the reserved ones, the first, 0x0C. -/
def Reg.offset : Reg → Nat
  | .cmd => 0x00
  | .status => 0x04
  | .din => 0x08
  | .salt w => 0x10 + 4 * w.val
  | .digest w => 0x20 + 4 * w.val
  | .state k => 0x40 + 4 * k.val
  | .lenLo => 0x80
  | .lenHi => 0x84
  | .reserved => 0x0C

/-- `WR <reg>, <v>` (30_encoding.md R87). -/
def wr (base : Nat) (r : Reg) (v : Word) : Input := .write (base + r.offset) 4 v

/-- `RD <reg>` (30_encoding.md R87). -/
def rd (base : Nat) (r : Reg) : Input := .read (base + r.offset) 4

/-- A command mnemonic: its word written to CMD (30_encoding.md R87). -/
def issue (base : Nat) (i : Instr) : Input := wr base .cmd (encode i)

/-- `SETSALT s0 .. s15` (30_encoding.md R88). -/
def setSalt (base : Nat) (salt : Vector Byte 16) : List Input :=
  [wr base (.salt 0) (wordAt salt 0 (by omega)), wr base (.salt 1) (wordAt salt 4 (by omega)),
   wr base (.salt 2) (wordAt salt 8 (by omega)), wr base (.salt 3) (wordAt salt 12 (by omega))]

/-- `FEED x`: chunks of 4 bytes and a shorter last one, each written to DIN, zeros above it, and appended (30_encoding.md R88). -/
def feed (base : Nat) : List Byte → List Input
  | [] => []
  | [a] => [wr base .din (le32 a 0 0 0), issue base (.append 1)]
  | [a, b] => [wr base .din (le32 a b 0 0), issue base (.append 2)]
  | [a, b, c] => [wr base .din (le32 a b c 0), issue base (.append 3)]
  | a :: b :: c :: d :: rest => wr base .din (le32 a b c d) :: issue base (.append 4) :: feed base rest

/-- `READDIGEST` (30_encoding.md R88). -/
def readDigest (base : Nat) : List Input := (List.finRange 8).map fun w => rd base (.digest w)

/-- `HASH v1, x` (30_encoding.md R88). -/
def hashV1 (base : Nat) (x : List Byte) : List Input :=
  issue base .startV1 :: (feed base x ++ (issue base .finalize :: readDigest base))

/-- `HASH v2, s, x` (30_encoding.md R88). -/
def hashV2 (base : Nat) (salt : Vector Byte 16) (x : List Byte) : List Input :=
  setSalt base salt ++ (issue base .startV2 :: (feed base x ++ (issue base .finalize :: readDigest base)))

end Sys2Proof.Machine
end

