-- ==== Sys2Proof/Machine/Reference.lean ====
section
/-! DEFINITION. The digest as the source defines it on a whole input: the padded buffer (41_padder.md R120) and the digest
function (45_commands.md R208). The engine never holds the buffer; the commands compute the same digest a block at a time. -/

namespace Sys2Proof.Machine

/-- `P = ceil((L + 16) / 32) * 32` (41_padder.md R120). -/
def paddedLength (l : Nat) : Nat := (l + 16 + 31) / 32 * 32

/-- `pad(s, x) = s ++ x ++ zeros(P - 16 - L)` (41_padder.md R120). -/
def pad (salt : Vector Byte 16) (x : List Byte) : List Byte :=
  salt.toList ++ x ++ List.replicate (paddedLength x.length - 16 - x.length) 0

/-- `B[32m .. 32m+32)` (00_scope.md R9, Block of R12's glossary); a byte past the end reads 0. -/
@[irreducible] def blockOf (B : List Byte) (m : Nat) : Vector Byte 32 := Vector.ofFn fun p => B.getD (32 * m + p.val) 0

/-- `digest_v1(x)` (45_commands.md R208): one word through every sub-word of every block, 5 rounds, serializer, salt XOR. -/
def digestV1 (x : List Byte) : Vector Byte 32 :=
  let B := pad v1Salt x
  let absorbed := Nat.fold (paddedLength x.length / 32) (fun m _ y =>
    Nat.fold 8 (fun j _ y => mix1 (y ^^^ rotl32 (wordAt (blockOf B m) (4 * j) (by omega)) j)) y) constIV
  let final := Nat.fold 5 (fun _ _ y => mix1 (y ^^^ rotl32 y 17)) absorbed
  saltXor v1Salt (serializeV1 final)

/-- `digest_v2(x, s)` (45_commands.md R208): sixteen words through every block, 12 rounds, serializer, salt XOR. -/
def digestV2 (x : List Byte) (salt : Vector Byte 16) : Vector Byte 32 :=
  let B := pad salt x
  let absorbed := Nat.fold (paddedLength x.length / 32) (fun m _ st => absorbV2 salt (blockOf B m) st) (initV2 salt)
  saltXor salt (serializeV2 (roundsV2 absorbed))

/-- The digest of a variant, the salt of V1 being the fixed one (45_commands.md R208). -/
def digestOf (v : Variant) (salt : Vector Byte 16) (x : List Byte) : Vector Byte 32 :=
  match v with
  | .v1 => digestV1 x
  | .v2 => digestV2 x salt

end Sys2Proof.Machine
end

