-- ==== Sys2Proof/Safety.lean ====
section
/-! DEFINITION. The terms claims are stated in: the invariants of 10_state.md R31, R32 and 70_reset_and_hazards.md R274, what
surrounds the engine, which access raises which error (60_exceptions.md R232), and what it means to be in the middle of a
computation over given input bytes (41_padder.md R126, 45_commands.md R208). -/

namespace Sys2Proof.Machine

/-- The engine's invariant "between commands" (10_state.md R31, R32). `PHASE` != 3 and `FILL` <= 31 hold by the types. -/
structure State.Inv (s : State) : Prop where
  /-- R31: `BUF[p]` = 0 for every `p` with `FILL <= p < 32`. -/
  bufZero : ∀ (p : Nat) (h : p < 32), s.fill.val ≤ p → s.buf[p] = 0
  /-- R32: if `PHASE` is IDLE or DONE then `FILL` = 0. -/
  fillZero : s.phase ≠ .absorb → s.fill = 0
  /-- R32: if `VAR` = V1 and `PHASE` is not IDLE then `ST[1..15]` are all 0. -/
  v1High : s.var = .v1 → s.phase ≠ .idle → ∀ (k : Nat) (h : k < 16), 1 ≤ k → s.st[k] = 0

/-- What an engine holds outside DONE and in IDLE: DIGEST reads 0 outside DONE (70_reset_and_hazards.md R274), and in IDLE, "no
computation has been started since reset or ABORT" (10_state.md R21), the elements only a computation writes are at reset. -/
structure State.QuietInv (s : State) : Prop where
  /-- R274: "in ABSORB and IDLE they read 0". -/
  digestZero : s.phase ≠ .done → ∀ (p : Nat) (h : p < 32), s.digest[p] = 0
  /-- R21, R22, R25, R28 with R38. -/
  idleClear : s.phase = .idle → s.var = .v1 ∧ s.len = 0 ∧ (∀ (k : Nat) (h : k < 16), s.st[k] = 0) ∧
    ∀ (p : Nat) (h : p < 32), s.buf[p] = 0

/-- The two states have the same surroundings: the model's own fields agree. -/
structure SameSurroundings (s t : State) : Prop where
  /-- The window's place. -/
  base : t.base = s.base
  /-- The inputs still to come. -/
  inputs : t.inputs = s.inputs
  /-- What reads returned. -/
  replies : t.replies = s.replies
  /-- The random source. -/
  rngQueued : t.rngQueued = s.rngQueued
  /-- The random source. -/
  rngMore : t.rngMore = s.rngMore
  /-- The random source. -/
  rngDrawn : t.rngDrawn = s.rngDrawn

/-- Every state element is at its reset value (10_state.md R38). -/
structure State.AtReset (s : State) : Prop where
  /-- `PHASE` IDLE. -/
  phase : s.phase = .idle
  /-- `VAR` V1. -/
  var : s.var = .v1
  /-- `ERR` NONE. -/
  err : s.err = .noError
  /-- `SALT` all 0x00. -/
  salt : ∀ (p : Nat) (h : p < 16), s.salt[p] = 0
  /-- `ST` all 0. -/
  st : ∀ (k : Nat) (h : k < 16), s.st[k] = 0
  /-- `BUF` all 0x00. -/
  buf : ∀ (p : Nat) (h : p < 32), s.buf[p] = 0
  /-- `FILL` 0. -/
  fill : s.fill = 0
  /-- `LEN` 0. -/
  len : s.len = 0
  /-- `DIGEST` all 0x00. -/
  digest : ∀ (p : Nat) (h : p < 32), s.digest[p] = 0
  /-- `DIN` 0. -/
  din : s.din = 0

/-- The code a write of `v` at window offset `off` raises in phase `p`, if any: the table of 60_exceptions.md R232 (no read and no
other write raises one). -/
def raisedBy (p : Phase) (off : Nat) (v : Word) : Option ErrCode :=
  if off = 0x00 then
    match decode v with
    | .error _ => some .illegal
    | .ok (.append _) => if p = .absorb then none else some .sequence
    | .ok .finalize => if p = .absorb then none else some .sequence
    | .ok .startV1 => none
    | .ok .startV2 => none
    | .ok .startV2R => none
    | .ok .abort => none
    | .ok .nop => none
  else if 0x10 ≤ off ∧ off ≤ 0x1C ∧ p = .absorb then some .locked
  else none

/-- The input is a write of a command word that decodes to `i`, to CMD. -/
def Input.isCommand (base : Nat) (i : Instr) (inp : Input) : Prop :=
  ∃ v, inp = .write base 4 v ∧ decode v = .ok i

/-- The input clears the engine: ABORT or reset (70_reset_and_hazards.md R261). -/
def Input.isClear (base : Nat) (inp : Input) : Prop := inp.isCommand base .abort ∨ inp = .rst

/-- The low `n` bytes of `DIN`, in the order APPEND takes them (41_padder.md R124). -/
def dinBytes (din : Word) (n : Nat) : List Byte := (List.range n).map (wordByte din)

/-- `ST` once every whole block of `salt ++ x` is absorbed, from the initial state of the variant (41_padder.md R126). -/
def absorbedState (v : Variant) (salt : Vector Byte 16) (x : List Byte) : Vector Word 16 :=
  Nat.fold ((16 + x.length) / 32) (fun m _ st => absorbBlock v salt (blockOf (salt.toList ++ x) m) st)
    (match v with | .v1 => initV1 | .v2 => initV2 salt)

/-- The engine is in the middle of a computation whose input so far is `x` (41_padder.md R126): the whole blocks of `SALT ++ x`
are in `ST`, the rest is in `BUF` with zeros above it. -/
structure State.Absorbing (s : State) (x : List Byte) : Prop where
  /-- `PHASE` = ABSORB. -/
  phase : s.phase = .absorb
  /-- `LEN` = `L` mod 2^64. -/
  len : s.len = BitVec.ofNat 64 x.length
  /-- `FILL` bytes of the current block have come. -/
  fill : s.fill.val = (16 + x.length) % 32
  /-- `BUF` holds them, then zeros. -/
  buf : s.buf = blockOf (s.salt.toList ++ x) ((16 + x.length) / 32)
  /-- `ST` holds the blocks before. -/
  st : s.st = absorbedState s.var s.salt x
  /-- In V1 the salt is the pattern (40_salt.md R100). -/
  salt : s.var = .v1 → s.salt = v1Salt

/-- An input that may stand between START and FINALIZE without ending the computation (45_commands.md R208, R209): an access of
the contract that is neither a START, FINALIZE nor ABORT command, and is not reset. -/
def Input.staysInside (base : Nat) : Input → Bool
  | .read addr size => (windowOffset base addr size).isSome
  | .write addr size v =>
    match windowOffset base addr size with
    | none => false
    | some off =>
      if off = 0x00 then
        match decode v with
        | .error _ => true
        | .ok .nop => true
        | .ok (.append _) => true
        | .ok .startV1 => false
        | .ok .startV2 => false
        | .ok .startV2R => false
        | .ok .finalize => false
        | .ok .abort => false
      else true
  | .rst => false

/-- The bytes a sequence of such inputs appends, `din` being DIN before it (41_padder.md R124; 70_reset_and_hazards.md R273). -/
def bytesAppended (base : Nat) : Word → List Input → List Byte
  | _, [] => []
  | din, .write addr size v :: rest =>
    if windowOffset base addr size = some 0x08 then bytesAppended base v rest
    else if windowOffset base addr size = some 0x00 then
      match decode v with
      | .ok (.append n) => dinBytes din n ++ bytesAppended base din rest
      | _ => bytesAppended base din rest
    else bytesAppended base din rest
  | din, _ :: rest => bytesAppended base din rest

end Sys2Proof.Machine
end

