-- ==== Sys2Proof/WellFormed.lean ====
section
/-! DEFINITION. Which commands have an encoding: the one check is APPEND's byte count (30_encoding.md R81). -/

namespace Sys2Proof

/-- `n` is 1, 2, 3 or 4 for APPEND (30_encoding.md R81); the other commands have no field. -/
def Instr.wellFormed : Instr → Bool
  | .nop => true
  | .startV1 => true
  | .startV2 => true
  | .startV2R => true
  | .append n => 1 ≤ n && n ≤ 4
  | .finalize => true
  | .abort => true

/-- A command the encoding of 30_encoding.md can express. -/
abbrev WellFormed (i : Instr) : Prop := i.wellFormed = true

end Sys2Proof
end

