-- ==== Sys2Proof/Certificates/Slice0/Obligations.lean ====
section
/-! DEFINITION. The statements of this row. The engine has no byte memory and no program counter (20_memory.md R50, 10_state.md
R36), so a frame names the ten state elements of 10_state.md R20 and, through `SameSurroundings`, the model's own fields (log
entries 1 to 4), which no command of the spec knows. -/

open Sys2Proof Sys2Proof.Machine

/-! ### Encoding -/

/-- Decoding and encoding are inverse on the well-formed commands, and a word that decodes to a command is that command's one
word: no field and no reserved bit is dropped (30_encoding.md R80, R81, R83, R84). -/
def Obligations.DecodeAndEncodeAgree : Prop :=
  ∀ (w : Word) (i : Instr), decode w = .ok i ↔ WellFormed i ∧ encode i = w

/-- The worked encodings of 30_encoding.md R89 and the words EN-1 to EN-13 of 95_test_vectors.md. -/
def Obligations.WorkedWordsDecode : Prop :=
  (decode 0x00000202 = .ok (.append 3) ∧ opField 0x00000202 = 0x02 ∧ fField 0x00000202 = 2) ∧
  (decode 0x00000301 = .ok .startV2R ∧ opField 0x00000301 = 0x01 ∧ fField 0x00000301 = 3) ∧
  decode 0x00000201 = .error .reservedField ∧ decode 0x00000402 = .error .reservedBits ∧
  decode 0x00000000 = .ok .nop ∧ decode 0x00000001 = .ok .startV1 ∧ decode 0x00000101 = .ok .startV2 ∧
  decode 0x00000002 = .ok (.append 1) ∧ decode 0x00000102 = .ok (.append 2) ∧ decode 0x00000302 = .ok (.append 4) ∧
  decode 0x00000003 = .ok .finalize ∧ decode 0x00000004 = .ok .abort ∧
  decode 0x00000103 = .error .reservedField ∧ decode 0x00000100 = .error .reservedField ∧
  decode 0x00000200 = .error .reservedField ∧ decode 0x00000300 = .error .reservedField ∧
  decode 0x00000005 = .error .reservedOpcode ∧ decode 0x000000ff = .error .reservedOpcode ∧
  decode 0x80000001 = .error .reservedBits

/-- "A word selects a command when `(word & mask) = match`. Any word matching no row is illegal"; "every word matches at most one
row" (30_encoding.md R83), the rows being those of `opcodeTable`. -/
def Obligations.TableRowSelectsTheCommand : Prop :=
  ∀ w : Word,
    (∀ r ∈ opcodeTable, r.selects w = true → ∃ i, decode w = .ok i ∧ i.mnemonic = r.mnemonic) ∧
    ((∀ r ∈ opcodeTable, r.selects w = false) → ∃ e, decode w = .error e) ∧
    (∀ r ∈ opcodeTable, ∀ q ∈ opcodeTable, r.selects w = true → q.selects w = true → r = q)

/-- Exactly the words of 30_encoding.md R85 are illegal, and writing one to CMD records ILLEGAL, if no error is recorded yet, and
changes nothing else; "every word either selects a row of rule R83 or is illegal". -/
def Obligations.IllegalWordsRecordIllegal : Prop :=
  ∀ (w : Word) (s : State),
    ((∃ e, decode w = .error e) ↔
      w.toNat / 1024 ≠ 0 ∨ 5 ≤ w.toNat % 256 ∨
      ((w.toNat % 256 = 0 ∨ w.toNat % 256 = 3 ∨ w.toNat % 256 = 4) ∧ w.toNat / 256 % 4 ≠ 0) ∨
      (w.toNat % 256 = 1 ∧ w.toNat / 256 % 4 = 2)) ∧
    ((∃ e, decode w = .error e) →
      s.regWrite .cmd w = .next { s with err := if s.err = .noError then .illegal else s.err }) ∧
    ((∃ r ∈ opcodeTable, r.selects w = true) ∨ ∃ e, decode w = .error e)

/-! ### Primitives and byte order -/

/-- `rotl32` of 42_mixing_primitives.md R140: "Bit `b` of the result is bit `(b - d) mod 32` of `x`" with `d = n mod 32`, and `d = 0`
returns `x`. -/
def Obligations.RotateLeftMovesEachBit : Prop :=
  ∀ (x : Word) (n b : Nat), b < 32 →
    (rotl32 x n).getLsbD b = x.getLsbD ((b + 32 - n % 32) % 32) ∧ (n % 32 = 0 → rotl32 x n = x)

/-- The identities of 42_mixing_primitives.md R142. -/
def Obligations.RotateIdentities : Prop :=
  (∀ (x : Word) (n : Nat), rotr32 x n = rotl32 x ((32 - n % 32) % 32)) ∧
  (∀ (x : Word) (a b : Nat), rotl32 (rotl32 x a) b = rotl32 x (a + b)) ∧
  (∀ x : Word, rotl32 x 32 = x) ∧
  (∀ (x y : Word) (n : Nat), rotl32 (x ^^^ y) n = rotl32 x n ^^^ rotl32 y n)

/-- 42_mixing_primitives.md R143: products and sums keep the low 32 bits, XOR is bitwise, and multiplying by an odd constant `C1`,
`C2` or `C3` is a bijection that maps only 0 to 0. -/
def Obligations.MultipliersAreBijections : Prop :=
  (∀ a b : Word, (a * b).toNat = a.toNat * b.toNat % 2 ^ 32 ∧ (a + b).toNat = (a.toNat + b.toNat) % 2 ^ 32 ∧
    ∀ k, (a ^^^ b).getLsbD k = (a.getLsbD k ^^ b.getLsbD k)) ∧
  ∀ c : Word, c = constC1 ∨ c = constC2 ∨ c = constC3 →
    c.toNat % 2 = 1 ∧ Function.Bijective (fun x : Word => x * c) ∧ ∀ x : Word, x * c = 0 ↔ x = 0

/-- `emix` is the six sequential steps of 42_mixing_primitives.md R145. R146: "a step `x xor rotl32(x, r)` maps `x` and its complement
to the same word", so `emix` is not injective, with its listed values. -/
def Obligations.EmixMapsComplementsTogether : Prop :=
  (∀ (x : Word) (r : Nat), ~~~x ^^^ rotl32 (~~~x) r = x ^^^ rotl32 x r) ∧
  (∀ x y z : Word, y = (x ^^^ rotl32 x 13) * 0x5bd1e995 → z = (y ^^^ rotr32 y 15) * 0x1b873593 →
    emix x = (z ^^^ rotl32 z 7) * 0xcc9e2d51) ∧ emix 1 = 0x827bd04b ∧
  (∀ x : Word, emix (~~~x) = emix x) ∧ ¬ Function.Injective emix ∧
  emix 0 = 0 ∧ emix 0xffffffff = 0 ∧ emix 0x80000000 = 0xe10d260b ∧ emix 0xdeadbeef = 0xc035bb25 ∧
  emix 0x12345678 = 0x5057b459

/-- The conversion helpers of 20_memory.md R52 are little-endian and inverse to each other, wherever in a byte array they are used. -/
def Obligations.LittleEndianRoundTrip : Prop :=
  (∀ b0 b1 b2 b3 : Byte,
    (le32 b0 b1 b2 b3).toNat = b0.toNat + 256 * b1.toNat + 65536 * b2.toNat + 16777216 * b3.toNat ∧
    wordByte (le32 b0 b1 b2 b3) 0 = b0 ∧ wordByte (le32 b0 b1 b2 b3) 1 = b1 ∧
    wordByte (le32 b0 b1 b2 b3) 2 = b2 ∧ wordByte (le32 b0 b1 b2 b3) 3 = b3) ∧
  (∀ w : Word, le32 (wordByte w 0) (wordByte w 1) (wordByte w 2) (wordByte w 3) = w) ∧
  (∀ (n : Nat) (B : Vector Byte n) (p : Nat) (h : p + 4 ≤ n) (w : Word),
    wordAt (setWordAt B p w h) p h = w ∧ setWordAt B p (wordAt B p h) h = B ∧
    ∀ (q : Nat) (hq : q < n), q < p ∨ p + 4 ≤ q → (setWordAt B p w h)[q] = B[q]) ∧
  le32 0x61 0x62 0x63 0x00 = 0x00636261

/-! ### The commands -/

/-- START_V1 (45_commands.md R201; 40_salt.md R100; 43_absorb.md R160): accepted in every phase, it completes with the pattern salt,
the V1 state, the salt in the buffer, FILL 16, LEN and DIGEST 0, PHASE ABSORB; ERR, DIN and the surroundings are unchanged. -/
def Obligations.StartV1OpensAComputation : Prop :=
  decode 0x00000001 = .ok .startV1 ∧
  ∀ s : State, ∃ t : State, exec .startV1 s = .next t ∧
    t.phase = .absorb ∧ t.var = .v1 ∧ t.err = s.err ∧
    (∀ (i : Nat) (h : i < 16), t.salt[i] = BitVec.ofNat 8 (i * 17 % 256)) ∧
    t.st[0] = 0xdeadbeef ∧ (∀ (k : Nat) (h : k < 16), 1 ≤ k → t.st[k] = 0) ∧
    (∀ (p : Nat) (h : p < 32), t.buf[p] = if h16 : p < 16 then t.salt[p] else 0) ∧
    t.fill.val = 16 ∧ t.len = 0 ∧ (∀ (p : Nat) (h : p < 32), t.digest[p] = 0) ∧ t.din = s.din ∧ SameSurroundings s t

/-- START_V2 (45_commands.md R202; 40_salt.md R102; 43_absorb.md R161): as START_V1, with the salt kept as it stands and
`ST[k] = (IV xor le32(SALT, 0)) + k * 0x12345678`. -/
def Obligations.StartV2UsesTheInjectedSalt : Prop :=
  decode 0x00000101 = .ok .startV2 ∧
  ∀ s : State, ∃ t : State, exec .startV2 s = .next t ∧
    t.phase = .absorb ∧ t.var = .v2 ∧ t.err = s.err ∧ t.salt = s.salt ∧
    (∀ (k : Nat) (h : k < 16),
      t.st[k] = (0xdeadbeef ^^^ le32 s.salt[0] s.salt[1] s.salt[2] s.salt[3]) + BitVec.ofNat 32 k * 0x12345678) ∧
    (∀ (p : Nat) (h : p < 32), t.buf[p] = if h16 : p < 16 then s.salt[p] else 0) ∧
    t.fill.val = 16 ∧ t.len = 0 ∧ (∀ (p : Nat) (h : p < 32), t.digest[p] = 0) ∧ t.din = s.din ∧ SameSurroundings s t

/-- START_V2R with its sixteen draws available (45_commands.md R203; 40_salt.md R103; 70_reset_and_hazards.md R276): as START_V2, with
the drawn bytes as the salt, the first in `SALT[0]`; exactly sixteen bytes are taken from the source. How the source is
written down (`rngQueued`, then the free bytes `Config.rngByte`) is the model's choice, log entry 4. -/
def Obligations.StartV2RUsesTheDrawnSalt : Prop :=
  decode 0x00000301 = .ok .startV2R ∧
  ∀ s : State, s.rngMore = true ∨ 16 ≤ s.rngQueued.length → ∃ t : State, exec .startV2R s = .next t ∧
    t.phase = .absorb ∧ t.var = .v2 ∧ t.err = s.err ∧
    (∀ (b : Nat) (h : b < 16),
      t.salt[b] = if hq : b < s.rngQueued.length then s.rngQueued[b] else Config.rngByte (s.rngDrawn + b)) ∧
    (∀ (k : Nat) (h : k < 16),
      t.st[k] = (0xdeadbeef ^^^ le32 t.salt[0] t.salt[1] t.salt[2] t.salt[3]) + BitVec.ofNat 32 k * 0x12345678) ∧
    (∀ (p : Nat) (h : p < 32), t.buf[p] = if h16 : p < 16 then t.salt[p] else 0) ∧
    t.fill.val = 16 ∧ t.len = 0 ∧ (∀ (p : Nat) (h : p < 32), t.digest[p] = 0) ∧ t.din = s.din ∧
    t.base = s.base ∧ t.inputs = s.inputs ∧ t.replies = s.replies ∧
    t.rngQueued = s.rngQueued.drop 16 ∧ t.rngMore = s.rngMore ∧ t.rngDrawn = s.rngDrawn + 16

/-- A random source that does not supply sixteen bytes (70_reset_and_hazards.md R276, R260; 93_implementation_defined.md I19): the
CMD write of START_V2R has no step, unless the next input is reset; then the command is abandoned, and the reset that
follows leaves the reset values. That the step before the reset takes the bytes that were there is the model's choice, log entry 5. -/
def Obligations.StartV2RStallsUntilReset : Prop :=
  ∀ (s : State) (rest : List Input), s.rngMore = false → s.rngQueued.length < 16 →
    s.inputs = .write s.base 4 0x00000301 :: rest →
    exec .startV2R s = .fault .randomStall ∧
    (rest.head? ≠ some .rst → step s = .fault .randomStall) ∧
    (rest.head? = some .rst → ∃ t u : State, step s = .next t ∧ step t = .next u ∧ u.AtReset ∧ u.inputs = rest.tail)

/-- APPEND `n` (45_commands.md R204): the words `0x002, 0x102, 0x202, 0x302` are APPEND 1 to 4. In ABSORB the bytes `DIN[7:0]` up to
`DIN[8n-1:8n-8]` enter `BUF` in that order; a block that fills is absorbed with VAR's absorber and the bytes left over start
the next block; FILL = (FILL + n) mod 32, LEN rises by `n`; nothing else changes. Outside ABSORB it records SEQUENCE, if no
error is recorded yet, with no other effect. -/
def Obligations.AppendFillsTheBlock : Prop :=
  ∀ (s : State) (n : Nat), 1 ≤ n → n ≤ 4 →
    decode (0x00000002 + (BitVec.ofNat 32 (n - 1) <<< 8)) = .ok (.append n) ∧
    (s.phase ≠ .absorb →
      exec (.append n) s = .next { s with err := if s.err = .noError then .sequence else s.err }) ∧
    (s.phase = .absorb → ∃ t : State, exec (.append n) s = .next t ∧
    t.phase = .absorb ∧ t.var = s.var ∧ t.err = s.err ∧ t.salt = s.salt ∧ t.digest = s.digest ∧ t.din = s.din ∧
    t.len = s.len + BitVec.ofNat 64 n ∧ t.fill.val = (s.fill.val + n) % 32 ∧ SameSurroundings s t ∧
    (s.fill.val + n < 32 → t.st = s.st ∧ ∀ (p : Nat) (h : p < 32),
      t.buf[p] = if s.fill.val ≤ p ∧ p < s.fill.val + n then s.din.extractLsb' (8 * (p - s.fill.val)) 8 else s.buf[p]) ∧
    (32 ≤ s.fill.val + n →
      (∃ B : Vector Byte 32, t.st = absorbBlock s.var s.salt B s.st ∧ ∀ (p : Nat) (h : p < 32),
        B[p] = if p < s.fill.val then s.buf[p] else s.din.extractLsb' (8 * (p - s.fill.val)) 8) ∧
      ∀ (p : Nat) (h : p < 32),
        t.buf[p] = if p + 32 < s.fill.val + n then s.din.extractLsb' (8 * (p + 32 - s.fill.val)) 8 else 0))

/-- "Only the low `n` bytes are used" (70_reset_and_hazards.md R273; 41_padder.md R124): two engines that differ in DIN above byte
`n - 1` alone do the same on APPEND `n`, but for that DIN. -/
def Obligations.AppendIgnoresTheHighBytes : Prop :=
  ∀ (s t : State) (n : Nat) (d : Word), (∀ b, b < n → d.extractLsb' (8 * b) 8 = s.din.extractLsb' (8 * b) 8) →
    exec (.append n) s = .next t → exec (.append n) { s with din := d } = .next { t with din := d }

/-- `execute_command` (45_commands.md R200): the word is decoded first; an illegal one records ILLEGAL, in every phase; APPEND and
FINALIZE outside ABSORB record SEQUENCE; every other command is performed. -/
def Obligations.DispatchChecksWordThenPhase : Prop :=
  ∀ (s : State) (v : Word),
    (∀ e, decode v = .error e →
      s.regWrite (regAt 0x00) v = .next { s with err := if s.err = .noError then .illegal else s.err }) ∧
    ∀ i, decode v = .ok i →
      (s.phase ≠ .absorb → (i = .finalize ∨ ∃ n, i = .append n) →
        s.regWrite (regAt 0x00) v = .next { s with err := if s.err = .noError then .sequence else s.err }) ∧
      (s.phase = .absorb ∨ (i ≠ .finalize ∧ ∀ n, i ≠ .append n) → s.regWrite (regAt 0x00) v = exec i s)

/-- A byte count no word encodes is refused by name: the model's own stop, on a term no step reaches (log entry 13). -/
def Obligations.UnencodableAppendIsRefused : Prop :=
  ∀ (s : State) (n : Nat), (n = 0 ∨ 5 ≤ n) →
    exec (.append n) s = .refused .noSuchByteCount ∧ ∀ w : Word, decode w ≠ .ok (.append n)

/-- FINALIZE (45_commands.md R205; 41_padder.md R125; 44_finalize.md R187, R188). In ABSORB the partial block is absorbed iff
FILL != 0; 5 V1 rounds on `ST[0]` or 12 V2 rounds; DIGEST is the serialized state with the salt XORed into bytes 0..15; PHASE =
DONE, FILL = 0; nothing else changes. Outside ABSORB it records SEQUENCE, if no error is recorded yet, with no other effect. -/
def Obligations.FinalizeWritesTheDigest : Prop :=
  decode 0x00000003 = .ok .finalize ∧
  (∀ s : State, s.phase ≠ .absorb →
    exec .finalize s = .next { s with err := if s.err = .noError then .sequence else s.err }) ∧
  ∀ s : State, s.phase = .absorb → ∃ (t : State) (st : Vector Word 16), exec .finalize s = .next t ∧
    (s.fill = 0 → st = s.st ∧ t.buf = s.buf) ∧
    (s.fill ≠ 0 → st = absorbBlock s.var s.salt s.buf s.st ∧ ∀ (p : Nat) (h : p < 32), t.buf[p] = 0) ∧
    (s.var = .v1 → t.st[0] = (fun x => mix1 (x ^^^ rotl32 x 17))^[5] st[0] ∧
      (∀ (k : Nat) (h : k < 16), 1 ≤ k → t.st[k] = st[k]) ∧
      ∀ (p : Nat) (h : p < 32), t.digest[p] = (serializeV1 t.st[0])[p] ^^^ (if h16 : p < 16 then s.salt[p] else 0)) ∧
    (s.var = .v2 → t.st = roundV2^[12] st ∧
      ∀ (p : Nat) (h : p < 32), t.digest[p] = (serializeV2 t.st)[p] ^^^ (if h16 : p < 16 then s.salt[p] else 0)) ∧
    t.phase = .done ∧ t.fill = 0 ∧ t.var = s.var ∧ t.err = s.err ∧ t.salt = s.salt ∧ t.len = s.len ∧ t.din = s.din ∧
    SameSurroundings s t

/-- What the registers show after FINALIZE (44_finalize.md R189 b, c). -/
def Obligations.DigestRegistersShowTheState : Prop :=
  ∀ s t : State, s.phase = .absorb → exec .finalize s = .next t →
    (s.var = .v1 →
      (∀ (p : Nat) (h : p < 16), t.digest[16 + p] = t.digest[p] ^^^ t.salt[p]) ∧
      t.regRead (.digest 4) = t.regRead (.state 0) ∧ t.regRead (.digest 5) = rotl32 t.st[0] 8 ∧
      t.regRead (.digest 6) = rotl32 t.st[0] 16 ∧ t.regRead (.digest 7) = rotl32 t.st[0] 24) ∧
    (s.var = .v2 →
      (∀ (w : Nat) (h : w < 4), t.regRead (.digest ⟨4 + w, by omega⟩) = t.st[4 + w]) ∧
      ∀ (w : Nat) (h : w < 4), t.regRead (.digest ⟨w, by omega⟩) = t.st[w] ^^^ t.regRead (.salt ⟨w, h⟩))

/-- ABORT (45_commands.md R206): in every phase, "every state element takes its value of 10_state.md rule R38"; the surroundings are
unchanged; "it is the only command that clears `ERR`". -/
def Obligations.AbortReturnsToReset : Prop :=
  decode 0x00000004 = .ok .abort ∧
  (∀ s : State, ∃ t : State, exec .abort s = .next t ∧ t.AtReset ∧ t.statusWord = 0 ∧ SameSurroundings s t) ∧
  ∀ (i : Instr) (s t : State), exec i s = .next t → s.err ≠ .noError → t.err = .noError → i = .abort

/-- NOP (45_commands.md R207): nothing, in every phase; "`0x00000100` and `0x00000200` (NOP with F != 0) are illegal". -/
def Obligations.NopChangesNothing : Prop :=
  (∀ s : State, exec .nop s = .next s) ∧ decode 0x00000000 = .ok .nop ∧
  decode 0x00000100 = .error .reservedField ∧ decode 0x00000200 = .error .reservedField

/-- A recorded error blocks nothing (60_exceptions.md R234: "later commands run normally whatever `ERR` holds"): a command that
completes does so under any other ERR as well, and every element but ERR comes out the same. -/
def Obligations.ErrorsBlockNoCommand : Prop :=
  ∀ (i : Instr) (s t : State) (e : ErrCode), exec i s = .next t →
    ∃ u : State, exec i { s with err := e } = .next u ∧ { u with err := t.err } = t

/-! ### Absorber, finalizer rounds and serializers -/

/-- `absorb_v1` (43_absorb.md R162): eight sequential steps, one per little-endian sub-word; at a block's offset, where
`i mod 32 = 0`, the distance is `j`. -/
def Obligations.AbsorbV1RunsEightSteps : Prop :=
  ∀ (B : Vector Byte 32) (i : Nat) (x : Word), ∃ X : Nat → Word, X 0 = x ∧ X 8 = absorbV1 B i x ∧
    ∀ (j : Nat) (h : j < 8),
      X (j + 1) = mix1 (X j ^^^ rotl32 (le32 B[4 * j] B[4 * j + 1] B[4 * j + 2] B[4 * j + 3]) ((j + i % 32) % 32)) ∧
      (i % 32 = 0 →
        X (j + 1) = mix1 (X j ^^^ rotl32 (le32 B[4 * j] B[4 * j + 1] B[4 * j + 2] B[4 * j + 3]) j))

/-- `absorb_v2` (43_absorb.md R164, R165): `j` outer, `k` inner, in place. In iteration `j` the words `k = 0..14` read the neighbour
that iteration `j - 1` left, and `k = 15` reads the `ST[0]` already updated in the same iteration. -/
def Obligations.AbsorbV2RunsInPlace : Prop :=
  ∀ (salt : Vector Byte 16) (B : Vector Byte 32) (st : Vector Word 16), ∃ S : Nat → Vector Word 16,
    S 0 = st ∧ S 8 = absorbV2 salt B st ∧
    ∀ (j : Nat) (h : j < 8), ∃ w : Word,
      w = le32 B[4 * j] B[4 * j + 1] B[4 * j + 2] B[4 * j + 3] + salt[j].setWidth 32 ∧
      (∀ (k : Nat) (hk : k < 15), (S (j + 1))[k] = emix ((S j)[k] ^^^ emix (w + (S j)[k + 1]))) ∧
      (S (j + 1))[15] = emix ((S j)[15] ^^^ emix (w + (S (j + 1))[0]))

/-- One V2 round (44_finalize.md R182, R183): "for `k = 0..14` the neighbour `ST[k+1]` still holds its value from the previous round
..., and for `k = 15` the neighbour `ST[0]` holds the value already updated in the same round". -/
def Obligations.FinalRoundRunsInPlace : Prop :=
  ∀ st : Vector Word 16,
    (∀ (k : Nat) (h : k < 15), (roundV2 st)[k] = emix (st[k] ^^^ st[k + 1])) ∧
    (roundV2 st)[15] = emix (st[15] ^^^ (roundV2 st)[0])

/-- The V1 mixing step (42_mixing_primitives.md R144), with its corner cases and examples; the number of rounds (44_finalize.md R180,
R181, R184), and the corner case of R184: sixteen equal words `c` become 0, but the last, which becomes `emix(c)`. -/
def Obligations.FinalRoundsAreFiveAndTwelve : Prop :=
  ((∀ x : Word, mix1 x = (x * 0x5bd1e995) ^^^ rotl32 x 13) ∧ mix1 0 = 0 ∧ mix1 0xffffffff = 0x5bd1e994 ∧
    (0x5bd1e994 : Word) = ~~~(0xffffffff * 0x5bd1e995) ∧ mix1 1 = 0x5bd1c995 ∧ mix1 0x80000000 = 0x80001000 ∧
    mix1 0xdeadbeef = 0x23db53ce ∧ mix1 0x12345678 = 0xf1ee899e) ∧
  (∀ x : Word, roundsV1 x = (fun x => mix1 (x ^^^ rotl32 x 17))^[5] x) ∧
  (∀ st : Vector Word 16, roundsV2 st = roundV2^[12] st) ∧
  ∀ c : Word, (∀ (k : Nat) (h : k < 15), (roundV2 (Vector.replicate 16 c))[k] = 0) ∧
    (roundV2 (Vector.replicate 16 c))[15] = emix c

/-- The serializers (44_finalize.md R185, R186): slot `m` of V1 holds `rotl32(s, 8m mod 32)`, so slots 4..7 repeat slots 0..3; slot
`m` of V2 holds `ST[m]`; each slot little-endian; `ST[0]` keeps the word the rounds left, not a rotated one. -/
def Obligations.SerializersPlaceTheWords : Prop :=
  (∀ s : State, s.var = .v1 → s.finalizeDigest.st[0] = roundsV1 s.st[0]) ∧
  ∀ (x : Word) (st : Vector Word 16) (m : Nat) (h : m < 8),
    wordAt (serializeV1 x) (4 * m) (by omega) = rotl32 x (8 * m % 32) ∧
    wordAt (serializeV2 st) (4 * m) (by omega) = st[m] ∧
    ∀ (p : Nat) (hp : p < 16), (serializeV1 x)[16 + p] = (serializeV1 x)[p]

/-! ### The register window -/

/-- `MemRead` (20_memory.md R57): the value of every offset. -/
def Obligations.RegisterReadValues : Prop :=
  ∀ (s : State) (off : Nat), off < 0x100 → off % 4 = 0 →
    (off = 0x00 → s.regRead (regAt off) = 0) ∧
    (off = 0x04 → s.regRead (regAt off) =
      s.phase.code + (s.var.code <<< 2) + (s.err.code <<< 4) + (BitVec.ofNat 32 s.fill.val <<< 8)) ∧
    (off = 0x08 → s.regRead (regAt off) = s.din) ∧
    (∀ (w : Nat) (h : w < 4), off = 0x10 + 4 * w →
      s.regRead (regAt off) = le32 s.salt[4 * w] s.salt[4 * w + 1] s.salt[4 * w + 2] s.salt[4 * w + 3]) ∧
    (∀ (w : Nat) (h : w < 8), off = 0x20 + 4 * w →
      s.regRead (regAt off) = le32 s.digest[4 * w] s.digest[4 * w + 1] s.digest[4 * w + 2] s.digest[4 * w + 3]) ∧
    (∀ (k : Nat) (h : k < 16), off = 0x40 + 4 * k → s.regRead (regAt off) = s.st[k]) ∧
    (off = 0x80 → (s.regRead (regAt off)).toNat = s.len.toNat % 2 ^ 32) ∧
    (off = 0x84 → (s.regRead (regAt off)).toNat = s.len.toNat / 2 ^ 32) ∧
    (off = 0x0C ∨ 0x88 ≤ off → s.regRead (regAt off) = 0)

/-- The fields of STATUS (10_state.md R34), with the codes of R20 and 60_exceptions.md R230; "a write to offset 0x04 is ignored". -/
def Obligations.StatusFieldLayout : Prop :=
  ∀ (s : State) (v : Word),
    s.statusWord.extractLsb' 0 2 = (match s.phase with | .idle => 0 | .absorb => 1 | .done => 2) ∧
    s.statusWord.extractLsb' 2 1 = (match s.var with | .v1 => 0 | .v2 => 1) ∧
    s.statusWord.extractLsb' 3 1 = 0 ∧
    s.statusWord.extractLsb' 4 3 = (match s.err with | .noError => 0 | .illegal => 1 | .sequence => 2 | .locked => 3) ∧
    s.statusWord.extractLsb' 7 1 = 0 ∧ s.statusWord.extractLsb' 8 5 = BitVec.ofNat 5 s.fill.val ∧
    s.statusWord.extractLsb' 13 19 = 0 ∧ s.regWrite (regAt 0x04) v = .next s

/-- `MemWrite` away from CMD and SALT (20_memory.md R60, R62): DIN takes the value in every phase with no other effect; a read-only
or reserved offset changes nothing and records no error. -/
def Obligations.WritesOutsideCommandAndSalt : Prop :=
  ∀ (s : State) (off : Nat) (v : Word), off < 0x100 → off % 4 = 0 → off ≠ 0x00 → ¬ (0x10 ≤ off ∧ off ≤ 0x1C) →
    s.regWrite (regAt off) v = if off = 0x08 then .next { s with din := v } else .next s

/-- `salt_write` (20_memory.md R61): in ABSORB it records LOCKED, if no error is recorded yet, and leaves SALT; in IDLE and DONE it
sets `SALT[4w .. 4w+4)` to the bytes of `v`, low byte first, and nothing else. -/
def Obligations.SaltWriteIsLockedInAbsorb : Prop :=
  ∀ (s : State) (w : Nat) (v : Word), w < 4 →
    (s.phase = .absorb →
      s.regWrite (regAt (0x10 + 4 * w)) v = .next { s with err := if s.err = .noError then .locked else s.err }) ∧
    (s.phase ≠ .absorb → ∃ salt : Vector Byte 16, s.regWrite (regAt (0x10 + 4 * w)) v = .next { s with salt := salt } ∧
      ∀ (p : Nat) (h : p < 16),
        salt[p] = if 4 * w ≤ p ∧ p < 4 * w + 4 then v.extractLsb' (8 * (p - 4 * w)) 8 else s.salt[p])

/-- A read that follows a write sees it (70_reset_and_hazards.md R270; 20_memory.md R53, R65): DIN always, SALTw outside ABSORB. -/
def Obligations.ReadsSeeEarlierWrites : Prop :=
  ∀ (s : State) (v : Word) (w : Nat), w < 4 →
    (∃ t : State, s.regWrite (regAt 0x08) v = .next t ∧ t.regRead (regAt 0x08) = v) ∧
    (s.phase ≠ .absorb → ∃ t : State, s.regWrite (regAt (0x10 + 4 * w)) v = .next t ∧
      t.regRead (regAt (0x10 + 4 * w)) = v ∧
      ∀ (u : Nat), u < 4 → u ≠ w → t.regRead (regAt (0x10 + 4 * u)) = s.regRead (regAt (0x10 + 4 * u)))

/-- Which write raises which code in which phase (60_exceptions.md R232), and what raising one does (R231): it is kept if `ERR` = 0
and has no other effect; the `err` output is 1 while `ERR` != 0. A write that raises none leaves ERR, but for ABORT. -/
def Obligations.AccessErrorsFollowTheTable : Prop :=
  ∀ (s : State) (off : Nat) (v : Word), off < 0x100 → off % 4 = 0 →
    (∀ c, raisedBy s.phase off v = some c →
      s.regWrite (regAt off) v = .next { s with err := if s.err = .noError then c else s.err }) ∧
    (raisedBy s.phase off v = none → ∀ t, s.regWrite (regAt off) v = .next t →
      t.err = s.err ∨ (t.err = .noError ∧ off = 0x00 ∧ decode v = .ok .abort)) ∧
    (s.errOut = true ↔ s.err ≠ .noError)

/-- "While `PHASE` = ABSORB, `VAR` and `SALT` do not change. `VAR` is written only by START, ABORT and reset", and a SALT write in
DONE leaves DIGEST (10_state.md R33; 90_conflicts.md C8). START and ABORT themselves end the computation in progress. -/
def Obligations.SaltAndVariantFixedDuringAbsorb : Prop :=
  ∀ (s t : State) (off : Nat) (v : Word), off < 0x100 → off % 4 = 0 → s.regWrite (regAt off) v = .next t →
    (∀ i : Instr, off = 0x00 → decode v = .ok i → i ≠ .startV1 ∧ i ≠ .startV2 ∧ i ≠ .startV2R ∧ i ≠ .abort) →
    t.var = s.var ∧ (s.phase = .absorb → t.salt = s.salt) ∧ (off ≠ 0x00 → t.digest = s.digest)

/-- The table of 45_commands.md R211 (10_state.md R21): where each command, and an illegal word, leaves PHASE, and which error it
records, if none is recorded yet. -/
def Obligations.PhaseFollowsTheTable : Prop :=
  ∀ (s t : State) (v : Word), s.regWrite .cmd v = .next t →
    (∀ i, decode v = .ok i →
      t.phase = (match i with
        | .startV1 => .absorb
        | .startV2 => .absorb
        | .startV2R => .absorb
        | .append _ => s.phase
        | .finalize => if s.phase = .absorb then .done else s.phase
        | .abort => .idle
        | .nop => s.phase) ∧
      t.err = (match i with
        | .startV1 => s.err
        | .startV2 => s.err
        | .startV2R => s.err
        | .append _ => if s.phase ≠ .absorb ∧ s.err = .noError then .sequence else s.err
        | .finalize => if s.phase ≠ .absorb ∧ s.err = .noError then .sequence else s.err
        | .abort => .noError
        | .nop => s.err)) ∧
    (∀ e, decode v = .error e → t.phase = s.phase ∧ t.err = if s.err = .noError then .illegal else s.err)

/-! ### The whole machine -/

/-- An access the contract admits is served as one step (20_memory.md R56, R57, R58, R64; 45_commands.md R200): a read returns the
register's value and changes nothing else; a CMD write of a word that decodes runs exactly that command; a CMD write of an
illegal word records ILLEGAL, if no error is recorded yet, and changes nothing else. The list of inputs,
the list of replies and the window's place are the model's own, log entries 1 to 3, and so is the exception for a stalled
command that reset abandons, log entry 5; with no input left the engine holds its state (60_exceptions.md R248). -/
def Obligations.StepRunsTheDecodedCommand : Prop :=
  (∀ (s : State) (off : Nat) (rest : List Input), off < 0x100 → off % 4 = 0 → s.inputs = .read (s.base + off) 4 :: rest →
    step s = .next { s with inputs := rest, replies := s.replies ++ [s.regRead (regAt off)] }) ∧
  (∀ (s : State) (v : Word) (i : Instr) (rest : List Input), s.inputs = .write (s.base + 0x00) 4 v :: rest →
    decode v = .ok i →
    (∀ t, exec i { s with inputs := rest } = .next t → step s = .next t) ∧
    (∀ f, exec i { s with inputs := rest } = .fault f → rest.head? ≠ some .rst → step s = .fault f)) ∧
  (∀ (s : State) (v : Word) (e : DecodeError) (rest : List Input), s.inputs = .write (s.base + 0x00) 4 v :: rest →
    decode v = .error e →
    step s = .next { s with inputs := rest, err := if s.err = .noError then .illegal else s.err }) ∧
  (∀ (s : State) (off : Nat) (v : Word) (rest : List Input), off < 0x100 → off % 4 = 0 → off ≠ 0x00 →
    s.inputs = .write (s.base + off) 4 v :: rest → step s = ({ s with inputs := rest } : State).regWrite (regAt off) v) ∧
  (∀ (s t : State) (w : Nat) (i : Instr), decode (BitVec.ofNat 32 w) = .ok i → exec i s = .next t →
    step (s.withFetchWord 32 w) = .next t) ∧
  (∀ s : State, s.inputs = [] → step s = .next s)

/-- An access that is not 32 bits wide, not aligned, or not in the window is refused: no step, no value (20_memory.md R56;
60_exceptions.md R236). Inputs, the window's place and the refusal's name are the model's: log entries 1, 3 and 9. -/
def Obligations.OutsideTheContractIsRefused : Prop :=
  ∀ (s : State) (addr size : Nat) (v : Word) (rest : List Input),
    size ≠ 4 ∨ addr < s.base ∨ s.base + 0x100 ≤ addr ∨ (addr - s.base) % 4 ≠ 0 →
    (s.inputs = .read addr size :: rest → step s = .refused .outsideInterface) ∧
    (s.inputs = .write addr size v :: rest → step s = .refused .outsideInterface)

/-- Each step takes the oldest input off the list, keeps BASE, and returns data to the host only for a read (20_memory.md R64, R65;
log entries 1 to 3). -/
def Obligations.StepServesTheOldestInput : Prop :=
  ∀ s t : State, step s = .next t → t.base = s.base ∧ t.inputs = s.inputs.tail ∧
    (t.replies = s.replies ∨
      ∃ (v : Word) (addr size : Nat), s.inputs.head? = some (.read addr size) ∧ t.replies = s.replies ++ [v])

/-- "The random byte port is read only by START_V2R" (20_memory.md R69): any other step leaves the random source as it is (the
source's fields are the model's own, log entry 4). -/
def Obligations.OnlyStartV2RDraws : Prop :=
  ∀ s t : State, step s = .next t →
    (∀ inp, s.inputs.head? = some inp → ¬ inp.isCommand s.base .startV2R) →
    t.rngQueued = s.rngQueued ∧ t.rngMore = s.rngMore ∧ t.rngDrawn = s.rngDrawn

/-- A recorded error stays until ABORT or reset (60_exceptions.md R238; 10_state.md R23). Inputs and BASE: log entries 1 and 3. -/
def Obligations.ErrorStaysUntilAbortOrReset : Prop :=
  ∀ s t : State, step s = .next t → s.err ≠ .noError →
    t.err = s.err ∨ (t.err = .noError ∧ ∃ inp, s.inputs.head? = some inp ∧ inp.isClear s.base)

/-- The state after reset (10_state.md R38): every element of State.reset has its value, STATUS reads 0, and ABORT leaves the same
values; so does a reset in any state (70_reset_and_hazards.md R260), which the model takes as an input, log entry 1. -/
def Obligations.ResetValues : Prop :=
  State.reset.AtReset ∧ State.reset.statusWord = 0 ∧ (∀ s t : State, exec .abort s = .next t → t.AtReset) ∧
  ∀ (s : State) (rest : List Input), s.inputs = .rst :: rest →
    ∃ t : State, step s = .next t ∧ t.AtReset ∧ t.inputs = rest

/-- The invariants hold after reset (10_state.md R31, R32; 70_reset_and_hazards.md R274). -/
def Obligations.InvariantsHoldAtReset : Prop := State.reset.Inv ∧ State.reset.QuietInv

/-- Every step keeps 10_state.md R31 (`BUF[FILL..32)` is zero) and R32 (FILL = 0 outside ABSORB; `ST[1..15]` = 0 in a V1
computation). -/
def Obligations.StepKeepsTheInvariant : Prop := ∀ s t : State, s.Inv → step s = .next t → t.Inv

/-- Every step keeps DIGEST at 0 outside DONE (70_reset_and_hazards.md R274) and, in IDLE, VAR, LEN, ST and BUF at their reset values
(10_state.md R21). -/
def Obligations.StepKeepsIdleQuiet : Prop := ∀ s t : State, s.QuietInv → step s = .next t → t.QuietInv

/-! ### The digest -/

/-- The padded buffer (41_padder.md R120, R128): salt, input, zeros, its length the smallest positive multiple of 32 that holds the
salt and the input. -/
def Obligations.PaddedBufferShape : Prop :=
  ∀ (salt : Vector Byte 16) (x : List Byte),
    (pad salt x).length = paddedLength x.length ∧ 32 ∣ paddedLength x.length ∧ 32 ≤ paddedLength x.length ∧
    x.length + 16 ≤ paddedLength x.length ∧ (∀ q, 32 ∣ q → x.length + 16 ≤ q → paddedLength x.length ≤ q) ∧
    (∀ (p : Nat) (h : p < 16), (pad salt x)[p]? = some salt[p]) ∧
    (∀ p, p < x.length → (pad salt x)[16 + p]? = x[p]?) ∧
    (∀ p, 16 + x.length ≤ p → p < paddedLength x.length → (pad salt x)[p]? = some 0)

/-- Trailing zeros inside the same padded length give the same padded buffer and the same digest (41_padder.md R131). -/
def Obligations.TrailingZerosKeepTheDigest : Prop :=
  ∀ (salt : Vector Byte 16) (x : List Byte) (k : Nat), paddedLength (x.length + k) = paddedLength x.length →
    pad salt (x ++ List.replicate k 0) = pad salt x ∧
    digestV1 (x ++ List.replicate k 0) = digestV1 x ∧ digestV2 (x ++ List.replicate k 0) salt = digestV2 x salt

/-- Every START opens a computation with no input bytes yet: the salt is in the buffer and nothing is absorbed (41_padder.md R121,
R126; 45_commands.md R201, R202, R203). What `drawsReady` says of the random source is the model's, log entry 4. -/
def Obligations.StartBeginsAnEmptyInput : Prop :=
  ∀ s : State,
    (∃ t : State, exec .startV1 s = .next t ∧ t.Absorbing [] ∧ t.var = .v1) ∧
    (∃ t : State, exec .startV2 s = .next t ∧ t.Absorbing [] ∧ t.var = .v2 ∧ t.salt = s.salt) ∧
    (s.drawsReady = true → ∃ t : State, exec .startV2R s = .next t ∧ t.Absorbing [] ∧ t.var = .v2)

/-- APPEND extends the input by DIN's low `n` bytes (41_padder.md R124, R126): the blocks absorbed and the bytes waiting are those
of the longer input. -/
def Obligations.AppendExtendsTheInput : Prop :=
  ∀ (s : State) (x : List Byte) (n : Nat), 1 ≤ n → n ≤ 4 → s.Absorbing x →
    ∃ t : State, exec (.append n) s = .next t ∧ t.Absorbing (x ++ dinBytes s.din n) ∧ t.var = s.var ∧ t.salt = s.salt

/-- FINALIZE leaves the digest of the padded input (41_padder.md R126; 45_commands.md R208). -/
def Obligations.FinalizeLeavesTheDigestOfTheInput : Prop :=
  ∀ (s : State) (x : List Byte), s.Absorbing x →
    ∃ t : State, exec .finalize s = .next t ∧ t.phase = .done ∧ t.len = BitVec.ofNat 64 x.length ∧
      t.digest = digestOf s.var s.salt x

/-- The digest function (45_commands.md R208): from any start state, a START, any sequence of accesses that stay inside the
computation, then FINALIZE, leaves PHASE = DONE, LEN = L mod 2^64 and the digest of the bytes appended, under the V1 salt,
the salt as it stands, or the drawn salt. The list of inputs, BASE and the form of the draw are the model's own, log entries
1, 3 and 4. -/
def Obligations.AnyAccessSequenceLeavesTheDigest : Prop :=
  ∀ (s : State) (start : Instr) (first last : Input) (accesses rest : List Input),
    first.isCommand s.base start → last.isCommand s.base .finalize →
    (∀ inp ∈ accesses, inp.staysInside s.base = true) → s.inputs = first :: (accesses ++ last :: rest) →
    start = .startV1 ∨ start = .startV2 ∨ (start = .startV2R ∧ s.drawsReady = true) →
    ∃ t : State, Sys2Proof.core.run (accesses.length + 2) s = .next t ∧ t.inputs = rest ∧ t.phase = .done ∧
      t.len = BitVec.ofNat 64 (bytesAppended s.base s.din accesses).length ∧
      (start = .startV1 → t.digest = digestV1 (bytesAppended s.base s.din accesses)) ∧
      (start = .startV2 → t.digest = digestV2 (bytesAppended s.base s.din accesses) s.salt) ∧
      (start = .startV2R → t.digest = digestV2 (bytesAppended s.base s.din accesses) t.salt ∧
        ∀ (b : Nat) (h : b < 16), t.salt[b] = s.drawnByte b)

/-- The digest does not depend on how the input is cut, nor on what stands between (45_commands.md R209; 40_salt.md R101): two
engines, in any states, that run V1 computations over the same bytes end with the same DIGEST (inputs and BASE: log entries
1 and 3). -/
def Obligations.DigestIgnoresTheSplit : Prop :=
  ∀ (s t s' t' : State) (first last first' last' : Input) (accesses accesses' rest rest' : List Input),
    first.isCommand s.base .startV1 → last.isCommand s.base .finalize →
    first'.isCommand s'.base .startV1 → last'.isCommand s'.base .finalize →
    (∀ inp ∈ accesses, inp.staysInside s.base = true) → (∀ inp ∈ accesses', inp.staysInside s'.base = true) →
    s.inputs = first :: (accesses ++ last :: rest) → s'.inputs = first' :: (accesses' ++ last' :: rest') →
    bytesAppended s.base s.din accesses = bytesAppended s'.base s'.din accesses' →
    Sys2Proof.core.run (accesses.length + 2) s = .next t → Sys2Proof.core.run (accesses'.length + 2) s' = .next t' →
    t.digest = t'.digest

/-- The pseudo-instructions HASH of 30_encoding.md R88: from any state (for V2, one that takes the salt: not in ABSORB), the eight
words READDIGEST returns are DIGEST0..DIGEST7 of the digest of `x`, and no error is recorded (inputs, replies and BASE: log
entries 1 to 3). -/
def Obligations.HashReturnsTheDigest : Prop :=
  ∀ (s : State) (salt : Vector Byte 16) (x : List Byte) (rest : List Input),
    (s.inputs = hashV1 s.base x ++ rest → ∃ t : State,
      Sys2Proof.core.run (hashV1 s.base x).length s = .next t ∧ t.inputs = rest ∧ t.err = s.err ∧
      t.replies = s.replies ++ (List.finRange 8).map fun w => wordAt (digestV1 x) (4 * w.val) (by omega)) ∧
    (s.phase ≠ .absorb → s.inputs = hashV2 s.base salt x ++ rest → ∃ t : State,
      Sys2Proof.core.run (hashV2 s.base salt x).length s = .next t ∧ t.inputs = rest ∧ t.err = s.err ∧
      t.replies = s.replies ++ (List.finRange 8).map fun w => wordAt (digestV2 x salt) (4 * w.val) (by omega))

/-! ### The level outputs -/

/-- "It drives two level outputs, `done` (1 while `PHASE` = DONE) and `err` (1 while `ERR` != 0)" (60_exceptions.md R239; 20_memory.md
R54), and where STATUS shows the same. -/
def Obligations.LevelOutputsFollowTheState : Prop :=
  ∀ s : State,
    (s.doneOut = true ↔ s.phase = .done) ∧ (s.doneOut = true ↔ s.statusWord.extractLsb' 0 2 = 2) ∧
    (s.errOut = true ↔ s.err ≠ .noError) ∧ (s.errOut = true ↔ s.statusWord.extractLsb' 4 3 ≠ 0)
end

