-- ==== Sys2Proof/Laws/Decode.lean ====
section
/-! SUPPORT. The fields of a command word as numbers, and the decoder as one case split over them: what the proofs about
encodings cite instead of unfolding `decode`. -/

namespace Sys2Proof

theorem opField_toNat (w : Word) : (opField w).toNat = w.toNat % 256 := by
  simp only [opField, BitVec.extractLsb'_toNat, Nat.shiftRight_eq_div_pow]; omega

theorem fField_toNat (w : Word) : (fField w).toNat = w.toNat / 256 % 4 := by
  simp only [fField, BitVec.extractLsb'_toNat, Nat.shiftRight_eq_div_pow]

theorem rsvField_toNat (w : Word) : (rsvField w).toNat = w.toNat / 1024 := by
  have := w.isLt
  simp only [rsvField, BitVec.extractLsb'_toNat, Nat.shiftRight_eq_div_pow]; omega

/-- The decoder read over the word's number (30_encoding.md R84). -/
theorem decode_eq_of_toNat (w : Word) :
    decode w =
      if w.toNat / 1024 ≠ 0 then .error .reservedBits
      else if w.toNat % 256 = 0 then
        if w.toNat / 256 % 4 = 0 then .ok .nop else .error .reservedField
      else if w.toNat % 256 = 1 then
        if w.toNat / 256 % 4 = 0 then .ok .startV1
        else if w.toNat / 256 % 4 = 1 then .ok .startV2
        else if w.toNat / 256 % 4 = 3 then .ok .startV2R
        else .error .reservedField
      else if w.toNat % 256 = 2 then .ok (.append (w.toNat / 256 % 4 + 1))
      else if w.toNat % 256 = 3 then
        if w.toNat / 256 % 4 = 0 then .ok .finalize else .error .reservedField
      else if w.toNat % 256 = 4 then
        if w.toNat / 256 % 4 = 0 then .ok .abort else .error .reservedField
      else .error .reservedOpcode := by
  simp only [decode, BitVec.toNat_eq, fField_toNat, opField_toNat, rsvField_toNat, ne_eq, BitVec.ofNat_eq_ofNat,
    BitVec.toNat_ofNat, Nat.reducePow, Nat.reduceMod]

/-- A word decodes only to a command the encoding can express (30_encoding.md R81). -/
theorem decode_wellFormed {w : Word} {i : Instr} (h : decode w = .ok i) : WellFormed i := by
  rw [decode_eq_of_toNat] at h
  split_ifs at h
  all_goals
    injection h with h
    subst h
    simp [WellFormed, Instr.wellFormed]
  omega

end Sys2Proof
end

