-- ==== Sys2Proof/Laws/Words.lean ====
section
/-! SUPPORT. The rotator as the library's rotate, and bytes inside words and byte arrays. -/

namespace Sys2Proof.Machine

theorem rotl32_eq_rotateLeft (x : Word) (n : Nat) : rotl32 x n = x.rotateLeft n := by
  unfold rotl32
  split
  · rename_i h
    rw [← BitVec.rotateLeft_mod_eq_rotateLeft, h]
    simp [BitVec.rotateLeft, BitVec.rotateLeftAux, BitVec.ushiftRight_eq_zero]
  · rfl

theorem rotr32_eq_rotateRight (x : Word) (n : Nat) : rotr32 x n = x.rotateRight n := by
  unfold rotr32
  split
  · rename_i h
    rw [← BitVec.rotateRight_mod_eq_rotateRight, h]
    simp [BitVec.rotateRight, BitVec.rotateRightAux, BitVec.shiftLeft_eq_zero]
  · rfl

/-- The bytes of a word as the digits of its number (00_scope.md R11). -/
theorem le32_toNat (b0 b1 b2 b3 : Byte) :
    (le32 b0 b1 b2 b3).toNat = b0.toNat + 256 * b1.toNat + 65536 * b2.toNat + 16777216 * b3.toNat := by
  have h0 := b0.isLt
  have h1 := b1.isLt
  have h2 := b2.isLt
  have h3 := b3.isLt
  simp only [le32, BitVec.toNat_add, BitVec.toNat_shiftLeft, BitVec.toNat_setWidth, Nat.shiftLeft_eq]
  omega

theorem wordByte_toNat (w : Word) (b : Nat) : (wordByte w b).toNat = w.toNat / 2 ^ (8 * b) % 256 := by
  simp [wordByte, BitVec.extractLsb'_toNat, Nat.shiftRight_eq_div_pow]

/-- The bytes of a word written into an array, and the bytes around them. -/
theorem setWordAt_getElem {n : Nat} (B : Vector Byte n) (p : Nat) (w : Word) (h : p + 4 ≤ n) (q : Nat) (hq : q < n) :
    (setWordAt B p w h)[q] = if p ≤ q ∧ q < p + 4 then wordByte w (q - p) else B[q] := by
  unfold setWordAt
  simp only [Vector.getElem_set]
  split_ifs <;> first | rfl | (exfalso; omega) | (congr 1; omega)

/-- The bytes of a word are the bytes it was built from (20_memory.md R52). -/
theorem wordByte_le32 (a b c d : Byte) :
    wordByte (le32 a b c d) 0 = a ∧ wordByte (le32 a b c d) 1 = b ∧ wordByte (le32 a b c d) 2 = c ∧
      wordByte (le32 a b c d) 3 = d := by
  have h := le32_toNat a b c d
  have ha := a.isLt
  have hb := b.isLt
  have hc := c.isLt
  have hd := d.isLt
  refine ⟨?_, ?_, ?_, ?_⟩ <;> (apply BitVec.eq_of_toNat_eq; rw [wordByte_toNat, h]; omega)

/-- Byte `b` of the word at `p` is the array's byte `p + b`. -/
theorem wordByte_wordAt {n : Nat} (B : Vector Byte n) (p : Nat) (h : p + 4 ≤ n) (b : Nat) (hb : b < 4) :
    wordByte (wordAt B p h) b = B[p + b] := by
  obtain ⟨h0, h1, h2, h3⟩ := wordByte_le32 B[p] B[p + 1] B[p + 2] B[p + 3]
  interval_cases b <;> simp [wordAt, *]

end Sys2Proof.Machine
end

