-- ==== Sys2Proof/Laws/Loops.lean ====
section
/-! SUPPORT. What the engine's loops leave: one lemma per loop, by induction over its bound, so that no proof unrolls one. -/

namespace Sys2Proof.Machine

/-- An in-place loop over the first `m` of sixteen words in which each new word is made from its own old value and its neighbour
`(k+1) mod 16`: below 15 the neighbour is the old one, at 15 it is the new word 0. -/
theorem fold_neighbour_getElem (g : Word → Word → Word) (st : Vector Word 16) (m : Nat) (hm : m ≤ 16) (q : Nat)
    (hq : q < 16) :
    (Nat.fold m (fun k hk (st : Vector Word 16) => st.set k (g st[k] st[(k + 1) % 16])) st)[q] =
      if q < m then if h15 : q < 15 then g st[q] st[q + 1] else g st[15] (g st[0] st[1]) else st[q] := by
  induction m generalizing q with
  | zero => simp
  | succ m ih =>
    rw [Nat.fold_succ, Vector.getElem_set]
    have hmod : m < 15 → (m + 1) % 16 = m + 1 := by omega
    by_cases hqm : m = q
    · subst hqm
      simp only [↓reduceIte, Nat.lt_succ_self]
      rw [ih (by omega) m (by omega), ih (by omega) ((m + 1) % 16) (by omega)]
      by_cases h15 : m < 15
      · simp [hmod h15, h15]
      · have : m = 15 := by omega
        subst this
        simp
    · rw [if_neg hqm, ih (by omega) q hq]
      by_cases h : q < m
      · simp [h, show q < m + 1 by omega]
      · simp [h, show ¬ q < m + 1 by omega]

/-- A loop that writes byte `p` of an array from itself and `p` only. -/
theorem fold_set_getElem {n m : Nat} (f : (p : Nat) → p < m → Byte → Byte) (B : Vector Byte n) (hm : m ≤ n) (q : Nat)
    (hq : q < n) :
    (Nat.fold m (fun p hp (B : Vector Byte n) => B.set p (f p hp B[p])) B)[q] = if h : q < m then f q h B[q] else B[q] := by
  induction m generalizing q with
  | zero => simp
  | succ m ih =>
    rw [Nat.fold_succ, Vector.getElem_set]
    by_cases hqm : m = q
    · subst hqm
      rw [if_pos rfl, ih (fun p hp => f p (by omega)) (by omega) m (by omega)]
      simp
    · rw [if_neg hqm, ih (fun p hp => f p (by omega)) (by omega) q hq]
      by_cases h : q < m
      · simp [h, show q < m + 1 by omega]
      · simp [h, show ¬ q < m + 1 by omega]

/-- The buffer START leaves (41_padder.md R121). -/
theorem saltBlock_getElem (salt : Vector Byte 16) (p : Nat) (hp : p < 32) :
    (saltBlock salt)[p] = if h : p < 16 then salt[p] else 0 := by
  unfold saltBlock
  rw [fold_set_getElem (fun p hp _ => salt[p]) _ (by omega) p hp]
  simp

/-- The salt XOR (44_finalize.md R187). -/
theorem saltXor_getElem (salt : Vector Byte 16) (out : Vector Byte 32) (p : Nat) (hp : p < 32) :
    (saltXor salt out)[p] = out[p] ^^^ (if h : p < 16 then salt[p] else 0) := by
  unfold saltXor
  rw [fold_set_getElem (fun p hp b => b ^^^ salt[p]) _ (by omega) p hp]
  split <;> simp

/-- The V1 salt (40_salt.md R100). -/
theorem v1Salt_getElem (i : Nat) (h : i < 16) : v1Salt[i] = BitVec.ofNat 8 (i * 17) := by
  unfold v1Salt
  simp

/-- The V1 initial state (43_absorb.md R160). -/
theorem initV1_getElem (k : Nat) (h : k < 16) : initV1[k] = if k = 0 then constIV else 0 := by
  simp only [initV1, Vector.getElem_set, Vector.getElem_replicate, eq_comm]

/-- The V2 initial state (43_absorb.md R161: "`ST[k] = ST[0] + k * 0x12345678` modulo 2^32"). -/
theorem initV2_getElem (salt : Vector Byte 16) (k : Nat) (hk : k < 16) :
    (initV2 salt)[k] = (constIV ^^^ wordAt salt 0 (by omega)) + BitVec.ofNat 32 k * constSTEP := by
  have key : ∀ (m : Nat) (hm : m ≤ 15) (q : Nat) (hq : q < 16),
      (Nat.fold m (fun i hi (st : Vector Word 16) => st.set (i + 1) (st[i] + constSTEP))
        ((Vector.replicate 16 0).set 0 (constIV ^^^ wordAt salt 0 (by omega))))[q] =
      if q ≤ m then (constIV ^^^ wordAt salt 0 (by omega)) + BitVec.ofNat 32 q * constSTEP else 0 := by
    intro m
    induction m with
    | zero =>
      intro _ q hq
      rw [Nat.fold_zero, Vector.getElem_set]
      by_cases h : 0 = q
      · subst h; simp
      · rw [if_neg h, if_neg (by omega)]; simp
    | succ m ih =>
      intro hm q hq
      rw [Nat.fold_succ, Vector.getElem_set]
      by_cases h : m + 1 = q
      · subst h
        rw [if_pos rfl, if_pos (le_refl _), ih (by omega) m (by omega), if_pos (le_refl _), BitVec.ofNat_add,
          BitVec.add_mul, BitVec.add_assoc]
        simp
      · rw [if_neg h, ih (by omega) q hq]
        by_cases h2 : q ≤ m
        · rw [if_pos h2, if_pos (by omega)]
        · rw [if_neg h2, if_neg (by omega)]
  unfold initV2
  rw [key 15 (by omega) k hk, if_pos (by omega)]

/-- The V2 serializer's bytes (44_finalize.md R186). -/
theorem serializeV2_getElem (st : Vector Word 16) (p : Nat) (hp : p < 32) :
    (serializeV2 st)[p] = wordByte st[p / 4] (p % 4) := by
  have key : ∀ (m : Nat) (hm : m ≤ 8) (q : Nat) (hq : q < 32),
      (Nat.fold m (fun m hm' (out : Vector Byte 32) => setWordAt out (4 * m) st[m % 16] (by omega))
        (Vector.replicate 32 0))[q] = if q < 4 * m then wordByte st[q / 4] (q % 4) else 0 := by
    intro m
    induction m with
    | zero => intro _ q hq; simp
    | succ m ih =>
      intro hm q hq
      rw [Nat.fold_succ, setWordAt_getElem, ih (by omega) q hq]
      by_cases h : 4 * m ≤ q ∧ q < 4 * m + 4
      · rw [if_pos h, if_pos (by omega)]
        congr 1
        · congr 1; omega
        · omega
      · rw [if_neg h]
        by_cases h2 : q < 4 * m
        · rw [if_pos h2, if_pos (by omega)]
        · rw [if_neg h2, if_neg (by omega)]
  unfold serializeV2
  rw [key 8 (by omega) p hp, if_pos (by omega)]

/-- The V1 serializer's bytes (44_finalize.md R185): slot `m` holds the word rotated `m` times by 8. -/
theorem serializeV1_getElem (x : Word) (p : Nat) (hp : p < 32) :
    (serializeV1 x)[p] = wordByte ((fun y => rotl32 y 8)^[p / 4] x) (p % 4) := by
  have key : ∀ (m : Nat) (hm : m ≤ 8),
      let r := Nat.fold m (fun m hm' (acc : Vector Byte 32 × Word) =>
        (setWordAt acc.1 (4 * m) acc.2 (by omega), rotl32 acc.2 8)) (Vector.replicate 32 0, x)
      r.2 = (fun y => rotl32 y 8)^[m] x ∧ ∀ (q : Nat) (hq : q < 32),
        r.1[q] = if q < 4 * m then wordByte ((fun y => rotl32 y 8)^[q / 4] x) (q % 4) else 0 := by
    intro m
    induction m with
    | zero => intro _; exact ⟨rfl, fun q hq => by simp⟩
    | succ m ih =>
      intro hm
      obtain ⟨h2, h1⟩ := ih (by omega)
      simp only [Nat.fold_succ]
      refine ⟨?_, fun q hq => ?_⟩
      · rw [h2, ← Function.iterate_succ_apply' (fun y => rotl32 y 8)]
      · rw [setWordAt_getElem, h1 q hq]
        by_cases h : 4 * m ≤ q ∧ q < 4 * m + 4
        · rw [if_pos h, if_pos (by omega), h2, show q / 4 = m by omega, show q - 4 * m = q % 4 by omega]
        · rw [if_neg h]
          by_cases h3 : q < 4 * m
          · rw [if_pos h3, if_pos (by omega)]
          · rw [if_neg h3, if_neg (by omega)]
  unfold serializeV1
  rw [(key 8 (by omega)).2 p hp, if_pos (by omega)]

end Sys2Proof.Machine
end

