-- ==== Sys2Proof/Laws/State.lean ====
section
/-! SUPPORT. One lemma per field per update of the state: what each named update writes and what it leaves. -/

namespace Sys2Proof.Machine

@[simp] theorem State.withInputs_phase (s : State) (rest : List Input) : (s.withInputs rest).phase = s.phase := rfl
@[simp] theorem State.withInputs_var (s : State) (rest : List Input) : (s.withInputs rest).var = s.var := rfl
@[simp] theorem State.withInputs_err (s : State) (rest : List Input) : (s.withInputs rest).err = s.err := rfl
@[simp] theorem State.withInputs_salt (s : State) (rest : List Input) : (s.withInputs rest).salt = s.salt := rfl
@[simp] theorem State.withInputs_st (s : State) (rest : List Input) : (s.withInputs rest).st = s.st := rfl
@[simp] theorem State.withInputs_buf (s : State) (rest : List Input) : (s.withInputs rest).buf = s.buf := rfl
@[simp] theorem State.withInputs_fill (s : State) (rest : List Input) : (s.withInputs rest).fill = s.fill := rfl
@[simp] theorem State.withInputs_len (s : State) (rest : List Input) : (s.withInputs rest).len = s.len := rfl
@[simp] theorem State.withInputs_digest (s : State) (rest : List Input) : (s.withInputs rest).digest = s.digest := rfl
@[simp] theorem State.withInputs_din (s : State) (rest : List Input) : (s.withInputs rest).din = s.din := rfl
@[simp] theorem State.withInputs_base (s : State) (rest : List Input) : (s.withInputs rest).base = s.base := rfl
@[simp] theorem State.withInputs_inputs (s : State) (rest : List Input) : (s.withInputs rest).inputs = rest := rfl
@[simp] theorem State.withInputs_replies (s : State) (rest : List Input) : (s.withInputs rest).replies = s.replies := rfl
@[simp] theorem State.withInputs_rngQueued (s : State) (rest : List Input) : (s.withInputs rest).rngQueued = s.rngQueued := rfl
@[simp] theorem State.withInputs_rngMore (s : State) (rest : List Input) : (s.withInputs rest).rngMore = s.rngMore := rfl
@[simp] theorem State.withInputs_rngDrawn (s : State) (rest : List Input) : (s.withInputs rest).rngDrawn = s.rngDrawn := rfl

@[simp] theorem State.reply_phase (s : State) (v : Word) : (s.reply v).phase = s.phase := rfl
@[simp] theorem State.reply_var (s : State) (v : Word) : (s.reply v).var = s.var := rfl
@[simp] theorem State.reply_err (s : State) (v : Word) : (s.reply v).err = s.err := rfl
@[simp] theorem State.reply_salt (s : State) (v : Word) : (s.reply v).salt = s.salt := rfl
@[simp] theorem State.reply_st (s : State) (v : Word) : (s.reply v).st = s.st := rfl
@[simp] theorem State.reply_buf (s : State) (v : Word) : (s.reply v).buf = s.buf := rfl
@[simp] theorem State.reply_fill (s : State) (v : Word) : (s.reply v).fill = s.fill := rfl
@[simp] theorem State.reply_len (s : State) (v : Word) : (s.reply v).len = s.len := rfl
@[simp] theorem State.reply_digest (s : State) (v : Word) : (s.reply v).digest = s.digest := rfl
@[simp] theorem State.reply_din (s : State) (v : Word) : (s.reply v).din = s.din := rfl
@[simp] theorem State.reply_base (s : State) (v : Word) : (s.reply v).base = s.base := rfl
@[simp] theorem State.reply_inputs (s : State) (v : Word) : (s.reply v).inputs = s.inputs := rfl
@[simp] theorem State.reply_replies (s : State) (v : Word) : (s.reply v).replies = s.replies ++ [v] := rfl
@[simp] theorem State.reply_rngQueued (s : State) (v : Word) : (s.reply v).rngQueued = s.rngQueued := rfl
@[simp] theorem State.reply_rngMore (s : State) (v : Word) : (s.reply v).rngMore = s.rngMore := rfl
@[simp] theorem State.reply_rngDrawn (s : State) (v : Word) : (s.reply v).rngDrawn = s.rngDrawn := rfl

@[simp] theorem State.writeDin_phase (s : State) (v : Word) : (s.writeDin v).phase = s.phase := rfl
@[simp] theorem State.writeDin_var (s : State) (v : Word) : (s.writeDin v).var = s.var := rfl
@[simp] theorem State.writeDin_err (s : State) (v : Word) : (s.writeDin v).err = s.err := rfl
@[simp] theorem State.writeDin_salt (s : State) (v : Word) : (s.writeDin v).salt = s.salt := rfl
@[simp] theorem State.writeDin_st (s : State) (v : Word) : (s.writeDin v).st = s.st := rfl
@[simp] theorem State.writeDin_buf (s : State) (v : Word) : (s.writeDin v).buf = s.buf := rfl
@[simp] theorem State.writeDin_fill (s : State) (v : Word) : (s.writeDin v).fill = s.fill := rfl
@[simp] theorem State.writeDin_len (s : State) (v : Word) : (s.writeDin v).len = s.len := rfl
@[simp] theorem State.writeDin_digest (s : State) (v : Word) : (s.writeDin v).digest = s.digest := rfl
@[simp] theorem State.writeDin_din (s : State) (v : Word) : (s.writeDin v).din = v := rfl
@[simp] theorem State.writeDin_base (s : State) (v : Word) : (s.writeDin v).base = s.base := rfl
@[simp] theorem State.writeDin_inputs (s : State) (v : Word) : (s.writeDin v).inputs = s.inputs := rfl
@[simp] theorem State.writeDin_replies (s : State) (v : Word) : (s.writeDin v).replies = s.replies := rfl
@[simp] theorem State.writeDin_rngQueued (s : State) (v : Word) : (s.writeDin v).rngQueued = s.rngQueued := rfl
@[simp] theorem State.writeDin_rngMore (s : State) (v : Word) : (s.writeDin v).rngMore = s.rngMore := rfl
@[simp] theorem State.writeDin_rngDrawn (s : State) (v : Word) : (s.writeDin v).rngDrawn = s.rngDrawn := rfl

@[simp] theorem State.writeSaltWord_phase (s : State) (w : Fin 4) (v : Word) : (s.writeSaltWord w v).phase = s.phase := rfl
@[simp] theorem State.writeSaltWord_var (s : State) (w : Fin 4) (v : Word) : (s.writeSaltWord w v).var = s.var := rfl
@[simp] theorem State.writeSaltWord_err (s : State) (w : Fin 4) (v : Word) : (s.writeSaltWord w v).err = s.err := rfl
@[simp] theorem State.writeSaltWord_salt (s : State) (w : Fin 4) (v : Word) : (s.writeSaltWord w v).salt = setWordAt s.salt (4 * w.val) v (by omega) := rfl
@[simp] theorem State.writeSaltWord_st (s : State) (w : Fin 4) (v : Word) : (s.writeSaltWord w v).st = s.st := rfl
@[simp] theorem State.writeSaltWord_buf (s : State) (w : Fin 4) (v : Word) : (s.writeSaltWord w v).buf = s.buf := rfl
@[simp] theorem State.writeSaltWord_fill (s : State) (w : Fin 4) (v : Word) : (s.writeSaltWord w v).fill = s.fill := rfl
@[simp] theorem State.writeSaltWord_len (s : State) (w : Fin 4) (v : Word) : (s.writeSaltWord w v).len = s.len := rfl
@[simp] theorem State.writeSaltWord_digest (s : State) (w : Fin 4) (v : Word) : (s.writeSaltWord w v).digest = s.digest := rfl
@[simp] theorem State.writeSaltWord_din (s : State) (w : Fin 4) (v : Word) : (s.writeSaltWord w v).din = s.din := rfl
@[simp] theorem State.writeSaltWord_base (s : State) (w : Fin 4) (v : Word) : (s.writeSaltWord w v).base = s.base := rfl
@[simp] theorem State.writeSaltWord_inputs (s : State) (w : Fin 4) (v : Word) : (s.writeSaltWord w v).inputs = s.inputs := rfl
@[simp] theorem State.writeSaltWord_replies (s : State) (w : Fin 4) (v : Word) : (s.writeSaltWord w v).replies = s.replies := rfl
@[simp] theorem State.writeSaltWord_rngQueued (s : State) (w : Fin 4) (v : Word) : (s.writeSaltWord w v).rngQueued = s.rngQueued := rfl
@[simp] theorem State.writeSaltWord_rngMore (s : State) (w : Fin 4) (v : Word) : (s.writeSaltWord w v).rngMore = s.rngMore := rfl
@[simp] theorem State.writeSaltWord_rngDrawn (s : State) (w : Fin 4) (v : Word) : (s.writeSaltWord w v).rngDrawn = s.rngDrawn := rfl

@[simp] theorem State.resetEngine_phase (s : State) : (s.resetEngine).phase = .idle := rfl
@[simp] theorem State.resetEngine_var (s : State) : (s.resetEngine).var = .v1 := rfl
@[simp] theorem State.resetEngine_err (s : State) : (s.resetEngine).err = .noError := rfl
@[simp] theorem State.resetEngine_salt (s : State) : (s.resetEngine).salt = Vector.replicate 16 0 := rfl
@[simp] theorem State.resetEngine_st (s : State) : (s.resetEngine).st = Vector.replicate 16 0 := rfl
@[simp] theorem State.resetEngine_buf (s : State) : (s.resetEngine).buf = Vector.replicate 32 0 := rfl
@[simp] theorem State.resetEngine_fill (s : State) : (s.resetEngine).fill = 0 := rfl
@[simp] theorem State.resetEngine_len (s : State) : (s.resetEngine).len = 0 := rfl
@[simp] theorem State.resetEngine_digest (s : State) : (s.resetEngine).digest = Vector.replicate 32 0 := rfl
@[simp] theorem State.resetEngine_din (s : State) : (s.resetEngine).din = 0 := rfl
@[simp] theorem State.resetEngine_base (s : State) : (s.resetEngine).base = s.base := rfl
@[simp] theorem State.resetEngine_inputs (s : State) : (s.resetEngine).inputs = s.inputs := rfl
@[simp] theorem State.resetEngine_replies (s : State) : (s.resetEngine).replies = s.replies := rfl
@[simp] theorem State.resetEngine_rngQueued (s : State) : (s.resetEngine).rngQueued = s.rngQueued := rfl
@[simp] theorem State.resetEngine_rngMore (s : State) : (s.resetEngine).rngMore = s.rngMore := rfl
@[simp] theorem State.resetEngine_rngDrawn (s : State) : (s.resetEngine).rngDrawn = s.rngDrawn := rfl

@[simp] theorem State.drawSalt_phase (s : State) : (s.drawSalt).phase = s.phase := rfl
@[simp] theorem State.drawSalt_var (s : State) : (s.drawSalt).var = s.var := rfl
@[simp] theorem State.drawSalt_err (s : State) : (s.drawSalt).err = s.err := rfl
@[simp] theorem State.drawSalt_salt (s : State) : (s.drawSalt).salt = s.drawnSalt := rfl
@[simp] theorem State.drawSalt_st (s : State) : (s.drawSalt).st = s.st := rfl
@[simp] theorem State.drawSalt_buf (s : State) : (s.drawSalt).buf = s.buf := rfl
@[simp] theorem State.drawSalt_fill (s : State) : (s.drawSalt).fill = s.fill := rfl
@[simp] theorem State.drawSalt_len (s : State) : (s.drawSalt).len = s.len := rfl
@[simp] theorem State.drawSalt_digest (s : State) : (s.drawSalt).digest = s.digest := rfl
@[simp] theorem State.drawSalt_din (s : State) : (s.drawSalt).din = s.din := rfl
@[simp] theorem State.drawSalt_base (s : State) : (s.drawSalt).base = s.base := rfl
@[simp] theorem State.drawSalt_inputs (s : State) : (s.drawSalt).inputs = s.inputs := rfl
@[simp] theorem State.drawSalt_replies (s : State) : (s.drawSalt).replies = s.replies := rfl
@[simp] theorem State.drawSalt_rngQueued (s : State) : (s.drawSalt).rngQueued = s.rngQueued.drop 16 := rfl
@[simp] theorem State.drawSalt_rngMore (s : State) : (s.drawSalt).rngMore = s.rngMore := rfl
@[simp] theorem State.drawSalt_rngDrawn (s : State) : (s.drawSalt).rngDrawn = s.rngDrawn + 16 := rfl

@[simp] theorem State.takeQueuedBytes_phase (s : State) : (s.takeQueuedBytes).phase = s.phase := rfl
@[simp] theorem State.takeQueuedBytes_var (s : State) : (s.takeQueuedBytes).var = s.var := rfl
@[simp] theorem State.takeQueuedBytes_err (s : State) : (s.takeQueuedBytes).err = s.err := rfl
@[simp] theorem State.takeQueuedBytes_salt (s : State) : (s.takeQueuedBytes).salt = s.salt := rfl
@[simp] theorem State.takeQueuedBytes_st (s : State) : (s.takeQueuedBytes).st = s.st := rfl
@[simp] theorem State.takeQueuedBytes_buf (s : State) : (s.takeQueuedBytes).buf = s.buf := rfl
@[simp] theorem State.takeQueuedBytes_fill (s : State) : (s.takeQueuedBytes).fill = s.fill := rfl
@[simp] theorem State.takeQueuedBytes_len (s : State) : (s.takeQueuedBytes).len = s.len := rfl
@[simp] theorem State.takeQueuedBytes_digest (s : State) : (s.takeQueuedBytes).digest = s.digest := rfl
@[simp] theorem State.takeQueuedBytes_din (s : State) : (s.takeQueuedBytes).din = s.din := rfl
@[simp] theorem State.takeQueuedBytes_base (s : State) : (s.takeQueuedBytes).base = s.base := rfl
@[simp] theorem State.takeQueuedBytes_inputs (s : State) : (s.takeQueuedBytes).inputs = s.inputs := rfl
@[simp] theorem State.takeQueuedBytes_replies (s : State) : (s.takeQueuedBytes).replies = s.replies := rfl
@[simp] theorem State.takeQueuedBytes_rngQueued (s : State) : (s.takeQueuedBytes).rngQueued = [] := rfl
@[simp] theorem State.takeQueuedBytes_rngMore (s : State) : (s.takeQueuedBytes).rngMore = s.rngMore := rfl
@[simp] theorem State.takeQueuedBytes_rngDrawn (s : State) : (s.takeQueuedBytes).rngDrawn = s.rngDrawn + s.rngQueued.length := rfl

@[simp] theorem State.setV1Salt_phase (s : State) : (s.setV1Salt).phase = s.phase := rfl
@[simp] theorem State.setV1Salt_var (s : State) : (s.setV1Salt).var = s.var := rfl
@[simp] theorem State.setV1Salt_err (s : State) : (s.setV1Salt).err = s.err := rfl
@[simp] theorem State.setV1Salt_salt (s : State) : (s.setV1Salt).salt = v1Salt := rfl
@[simp] theorem State.setV1Salt_st (s : State) : (s.setV1Salt).st = s.st := rfl
@[simp] theorem State.setV1Salt_buf (s : State) : (s.setV1Salt).buf = s.buf := rfl
@[simp] theorem State.setV1Salt_fill (s : State) : (s.setV1Salt).fill = s.fill := rfl
@[simp] theorem State.setV1Salt_len (s : State) : (s.setV1Salt).len = s.len := rfl
@[simp] theorem State.setV1Salt_digest (s : State) : (s.setV1Salt).digest = s.digest := rfl
@[simp] theorem State.setV1Salt_din (s : State) : (s.setV1Salt).din = s.din := rfl
@[simp] theorem State.setV1Salt_base (s : State) : (s.setV1Salt).base = s.base := rfl
@[simp] theorem State.setV1Salt_inputs (s : State) : (s.setV1Salt).inputs = s.inputs := rfl
@[simp] theorem State.setV1Salt_replies (s : State) : (s.setV1Salt).replies = s.replies := rfl
@[simp] theorem State.setV1Salt_rngQueued (s : State) : (s.setV1Salt).rngQueued = s.rngQueued := rfl
@[simp] theorem State.setV1Salt_rngMore (s : State) : (s.setV1Salt).rngMore = s.rngMore := rfl
@[simp] theorem State.setV1Salt_rngDrawn (s : State) : (s.setV1Salt).rngDrawn = s.rngDrawn := rfl

@[simp] theorem State.selectV1_phase (s : State) : (s.selectV1).phase = s.phase := rfl
@[simp] theorem State.selectV1_var (s : State) : (s.selectV1).var = .v1 := rfl
@[simp] theorem State.selectV1_err (s : State) : (s.selectV1).err = s.err := rfl
@[simp] theorem State.selectV1_salt (s : State) : (s.selectV1).salt = s.salt := rfl
@[simp] theorem State.selectV1_st (s : State) : (s.selectV1).st = initV1 := rfl
@[simp] theorem State.selectV1_buf (s : State) : (s.selectV1).buf = s.buf := rfl
@[simp] theorem State.selectV1_fill (s : State) : (s.selectV1).fill = s.fill := rfl
@[simp] theorem State.selectV1_len (s : State) : (s.selectV1).len = s.len := rfl
@[simp] theorem State.selectV1_digest (s : State) : (s.selectV1).digest = s.digest := rfl
@[simp] theorem State.selectV1_din (s : State) : (s.selectV1).din = s.din := rfl
@[simp] theorem State.selectV1_base (s : State) : (s.selectV1).base = s.base := rfl
@[simp] theorem State.selectV1_inputs (s : State) : (s.selectV1).inputs = s.inputs := rfl
@[simp] theorem State.selectV1_replies (s : State) : (s.selectV1).replies = s.replies := rfl
@[simp] theorem State.selectV1_rngQueued (s : State) : (s.selectV1).rngQueued = s.rngQueued := rfl
@[simp] theorem State.selectV1_rngMore (s : State) : (s.selectV1).rngMore = s.rngMore := rfl
@[simp] theorem State.selectV1_rngDrawn (s : State) : (s.selectV1).rngDrawn = s.rngDrawn := rfl

@[simp] theorem State.selectV2_phase (s : State) : (s.selectV2).phase = s.phase := rfl
@[simp] theorem State.selectV2_var (s : State) : (s.selectV2).var = .v2 := rfl
@[simp] theorem State.selectV2_err (s : State) : (s.selectV2).err = s.err := rfl
@[simp] theorem State.selectV2_salt (s : State) : (s.selectV2).salt = s.salt := rfl
@[simp] theorem State.selectV2_st (s : State) : (s.selectV2).st = initV2 s.salt := rfl
@[simp] theorem State.selectV2_buf (s : State) : (s.selectV2).buf = s.buf := rfl
@[simp] theorem State.selectV2_fill (s : State) : (s.selectV2).fill = s.fill := rfl
@[simp] theorem State.selectV2_len (s : State) : (s.selectV2).len = s.len := rfl
@[simp] theorem State.selectV2_digest (s : State) : (s.selectV2).digest = s.digest := rfl
@[simp] theorem State.selectV2_din (s : State) : (s.selectV2).din = s.din := rfl
@[simp] theorem State.selectV2_base (s : State) : (s.selectV2).base = s.base := rfl
@[simp] theorem State.selectV2_inputs (s : State) : (s.selectV2).inputs = s.inputs := rfl
@[simp] theorem State.selectV2_replies (s : State) : (s.selectV2).replies = s.replies := rfl
@[simp] theorem State.selectV2_rngQueued (s : State) : (s.selectV2).rngQueued = s.rngQueued := rfl
@[simp] theorem State.selectV2_rngMore (s : State) : (s.selectV2).rngMore = s.rngMore := rfl
@[simp] theorem State.selectV2_rngDrawn (s : State) : (s.selectV2).rngDrawn = s.rngDrawn := rfl

@[simp] theorem State.startBuffer_phase (s : State) : (s.startBuffer).phase = s.phase := rfl
@[simp] theorem State.startBuffer_var (s : State) : (s.startBuffer).var = s.var := rfl
@[simp] theorem State.startBuffer_err (s : State) : (s.startBuffer).err = s.err := rfl
@[simp] theorem State.startBuffer_salt (s : State) : (s.startBuffer).salt = s.salt := rfl
@[simp] theorem State.startBuffer_st (s : State) : (s.startBuffer).st = s.st := rfl
@[simp] theorem State.startBuffer_buf (s : State) : (s.startBuffer).buf = saltBlock s.salt := rfl
@[simp] theorem State.startBuffer_fill (s : State) : (s.startBuffer).fill = 16 := rfl
@[simp] theorem State.startBuffer_len (s : State) : (s.startBuffer).len = s.len := rfl
@[simp] theorem State.startBuffer_digest (s : State) : (s.startBuffer).digest = s.digest := rfl
@[simp] theorem State.startBuffer_din (s : State) : (s.startBuffer).din = s.din := rfl
@[simp] theorem State.startBuffer_base (s : State) : (s.startBuffer).base = s.base := rfl
@[simp] theorem State.startBuffer_inputs (s : State) : (s.startBuffer).inputs = s.inputs := rfl
@[simp] theorem State.startBuffer_replies (s : State) : (s.startBuffer).replies = s.replies := rfl
@[simp] theorem State.startBuffer_rngQueued (s : State) : (s.startBuffer).rngQueued = s.rngQueued := rfl
@[simp] theorem State.startBuffer_rngMore (s : State) : (s.startBuffer).rngMore = s.rngMore := rfl
@[simp] theorem State.startBuffer_rngDrawn (s : State) : (s.startBuffer).rngDrawn = s.rngDrawn := rfl

@[simp] theorem State.openComputation_phase (s : State) : (s.openComputation).phase = .absorb := rfl
@[simp] theorem State.openComputation_var (s : State) : (s.openComputation).var = s.var := rfl
@[simp] theorem State.openComputation_err (s : State) : (s.openComputation).err = s.err := rfl
@[simp] theorem State.openComputation_salt (s : State) : (s.openComputation).salt = s.salt := rfl
@[simp] theorem State.openComputation_st (s : State) : (s.openComputation).st = s.st := rfl
@[simp] theorem State.openComputation_buf (s : State) : (s.openComputation).buf = s.buf := rfl
@[simp] theorem State.openComputation_fill (s : State) : (s.openComputation).fill = s.fill := rfl
@[simp] theorem State.openComputation_len (s : State) : (s.openComputation).len = 0 := rfl
@[simp] theorem State.openComputation_digest (s : State) : (s.openComputation).digest = Vector.replicate 32 0 := rfl
@[simp] theorem State.openComputation_din (s : State) : (s.openComputation).din = s.din := rfl
@[simp] theorem State.openComputation_base (s : State) : (s.openComputation).base = s.base := rfl
@[simp] theorem State.openComputation_inputs (s : State) : (s.openComputation).inputs = s.inputs := rfl
@[simp] theorem State.openComputation_replies (s : State) : (s.openComputation).replies = s.replies := rfl
@[simp] theorem State.openComputation_rngQueued (s : State) : (s.openComputation).rngQueued = s.rngQueued := rfl
@[simp] theorem State.openComputation_rngMore (s : State) : (s.openComputation).rngMore = s.rngMore := rfl
@[simp] theorem State.openComputation_rngDrawn (s : State) : (s.openComputation).rngDrawn = s.rngDrawn := rfl

@[simp] theorem State.writeBuf_phase (s : State) (x : Byte) : (s.writeBuf x).phase = s.phase := rfl
@[simp] theorem State.writeBuf_var (s : State) (x : Byte) : (s.writeBuf x).var = s.var := rfl
@[simp] theorem State.writeBuf_err (s : State) (x : Byte) : (s.writeBuf x).err = s.err := rfl
@[simp] theorem State.writeBuf_salt (s : State) (x : Byte) : (s.writeBuf x).salt = s.salt := rfl
@[simp] theorem State.writeBuf_st (s : State) (x : Byte) : (s.writeBuf x).st = s.st := rfl
@[simp] theorem State.writeBuf_buf (s : State) (x : Byte) : (s.writeBuf x).buf = s.buf.set s.fill.val x := rfl
@[simp] theorem State.writeBuf_fill (s : State) (x : Byte) : (s.writeBuf x).fill = s.fill := rfl
@[simp] theorem State.writeBuf_len (s : State) (x : Byte) : (s.writeBuf x).len = s.len := rfl
@[simp] theorem State.writeBuf_digest (s : State) (x : Byte) : (s.writeBuf x).digest = s.digest := rfl
@[simp] theorem State.writeBuf_din (s : State) (x : Byte) : (s.writeBuf x).din = s.din := rfl
@[simp] theorem State.writeBuf_base (s : State) (x : Byte) : (s.writeBuf x).base = s.base := rfl
@[simp] theorem State.writeBuf_inputs (s : State) (x : Byte) : (s.writeBuf x).inputs = s.inputs := rfl
@[simp] theorem State.writeBuf_replies (s : State) (x : Byte) : (s.writeBuf x).replies = s.replies := rfl
@[simp] theorem State.writeBuf_rngQueued (s : State) (x : Byte) : (s.writeBuf x).rngQueued = s.rngQueued := rfl
@[simp] theorem State.writeBuf_rngMore (s : State) (x : Byte) : (s.writeBuf x).rngMore = s.rngMore := rfl
@[simp] theorem State.writeBuf_rngDrawn (s : State) (x : Byte) : (s.writeBuf x).rngDrawn = s.rngDrawn := rfl

@[simp] theorem State.addLen_phase (s : State) (n : Nat) : (s.addLen n).phase = s.phase := rfl
@[simp] theorem State.addLen_var (s : State) (n : Nat) : (s.addLen n).var = s.var := rfl
@[simp] theorem State.addLen_err (s : State) (n : Nat) : (s.addLen n).err = s.err := rfl
@[simp] theorem State.addLen_salt (s : State) (n : Nat) : (s.addLen n).salt = s.salt := rfl
@[simp] theorem State.addLen_st (s : State) (n : Nat) : (s.addLen n).st = s.st := rfl
@[simp] theorem State.addLen_buf (s : State) (n : Nat) : (s.addLen n).buf = s.buf := rfl
@[simp] theorem State.addLen_fill (s : State) (n : Nat) : (s.addLen n).fill = s.fill := rfl
@[simp] theorem State.addLen_len (s : State) (n : Nat) : (s.addLen n).len = s.len + BitVec.ofNat 64 n := rfl
@[simp] theorem State.addLen_digest (s : State) (n : Nat) : (s.addLen n).digest = s.digest := rfl
@[simp] theorem State.addLen_din (s : State) (n : Nat) : (s.addLen n).din = s.din := rfl
@[simp] theorem State.addLen_base (s : State) (n : Nat) : (s.addLen n).base = s.base := rfl
@[simp] theorem State.addLen_inputs (s : State) (n : Nat) : (s.addLen n).inputs = s.inputs := rfl
@[simp] theorem State.addLen_replies (s : State) (n : Nat) : (s.addLen n).replies = s.replies := rfl
@[simp] theorem State.addLen_rngQueued (s : State) (n : Nat) : (s.addLen n).rngQueued = s.rngQueued := rfl
@[simp] theorem State.addLen_rngMore (s : State) (n : Nat) : (s.addLen n).rngMore = s.rngMore := rfl
@[simp] theorem State.addLen_rngDrawn (s : State) (n : Nat) : (s.addLen n).rngDrawn = s.rngDrawn := rfl

@[simp] theorem State.closeComputation_phase (s : State) : (s.closeComputation).phase = .done := rfl
@[simp] theorem State.closeComputation_var (s : State) : (s.closeComputation).var = s.var := rfl
@[simp] theorem State.closeComputation_err (s : State) : (s.closeComputation).err = s.err := rfl
@[simp] theorem State.closeComputation_salt (s : State) : (s.closeComputation).salt = s.salt := rfl
@[simp] theorem State.closeComputation_st (s : State) : (s.closeComputation).st = s.st := rfl
@[simp] theorem State.closeComputation_buf (s : State) : (s.closeComputation).buf = s.buf := rfl
@[simp] theorem State.closeComputation_fill (s : State) : (s.closeComputation).fill = s.fill := rfl
@[simp] theorem State.closeComputation_len (s : State) : (s.closeComputation).len = s.len := rfl
@[simp] theorem State.closeComputation_digest (s : State) : (s.closeComputation).digest = s.digest := rfl
@[simp] theorem State.closeComputation_din (s : State) : (s.closeComputation).din = s.din := rfl
@[simp] theorem State.closeComputation_base (s : State) : (s.closeComputation).base = s.base := rfl
@[simp] theorem State.closeComputation_inputs (s : State) : (s.closeComputation).inputs = s.inputs := rfl
@[simp] theorem State.closeComputation_replies (s : State) : (s.closeComputation).replies = s.replies := rfl
@[simp] theorem State.closeComputation_rngQueued (s : State) : (s.closeComputation).rngQueued = s.rngQueued := rfl
@[simp] theorem State.closeComputation_rngMore (s : State) : (s.closeComputation).rngMore = s.rngMore := rfl
@[simp] theorem State.closeComputation_rngDrawn (s : State) : (s.closeComputation).rngDrawn = s.rngDrawn := rfl

@[simp] theorem State.absorbBuffer_phase (s : State) : (s.absorbBuffer).phase = s.phase := rfl
@[simp] theorem State.absorbBuffer_var (s : State) : (s.absorbBuffer).var = s.var := rfl
@[simp] theorem State.absorbBuffer_err (s : State) : (s.absorbBuffer).err = s.err := rfl
@[simp] theorem State.absorbBuffer_salt (s : State) : (s.absorbBuffer).salt = s.salt := rfl
@[simp] theorem State.absorbBuffer_st (s : State) : (s.absorbBuffer).st = absorbBlock s.var s.salt s.buf s.st := rfl
@[simp] theorem State.absorbBuffer_buf (s : State) : (s.absorbBuffer).buf = Vector.replicate 32 0 := rfl
@[simp] theorem State.absorbBuffer_fill (s : State) : (s.absorbBuffer).fill = 0 := rfl
@[simp] theorem State.absorbBuffer_len (s : State) : (s.absorbBuffer).len = s.len := rfl
@[simp] theorem State.absorbBuffer_digest (s : State) : (s.absorbBuffer).digest = s.digest := rfl
@[simp] theorem State.absorbBuffer_din (s : State) : (s.absorbBuffer).din = s.din := rfl
@[simp] theorem State.absorbBuffer_base (s : State) : (s.absorbBuffer).base = s.base := rfl
@[simp] theorem State.absorbBuffer_inputs (s : State) : (s.absorbBuffer).inputs = s.inputs := rfl
@[simp] theorem State.absorbBuffer_replies (s : State) : (s.absorbBuffer).replies = s.replies := rfl
@[simp] theorem State.absorbBuffer_rngQueued (s : State) : (s.absorbBuffer).rngQueued = s.rngQueued := rfl
@[simp] theorem State.absorbBuffer_rngMore (s : State) : (s.absorbBuffer).rngMore = s.rngMore := rfl
@[simp] theorem State.absorbBuffer_rngDrawn (s : State) : (s.absorbBuffer).rngDrawn = s.rngDrawn := rfl

@[simp] theorem State.raiseError_phase (s : State) (c : ErrCode) : (s.raiseError c).phase = s.phase := by
  unfold State.raiseError; split <;> rfl
@[simp] theorem State.raiseError_var (s : State) (c : ErrCode) : (s.raiseError c).var = s.var := by
  unfold State.raiseError; split <;> rfl
@[simp] theorem State.raiseError_err (s : State) (c : ErrCode) : (s.raiseError c).err = if s.err = .noError then c else s.err := by
  unfold State.raiseError; split <;> rfl
@[simp] theorem State.raiseError_salt (s : State) (c : ErrCode) : (s.raiseError c).salt = s.salt := by
  unfold State.raiseError; split <;> rfl
@[simp] theorem State.raiseError_st (s : State) (c : ErrCode) : (s.raiseError c).st = s.st := by
  unfold State.raiseError; split <;> rfl
@[simp] theorem State.raiseError_buf (s : State) (c : ErrCode) : (s.raiseError c).buf = s.buf := by
  unfold State.raiseError; split <;> rfl
@[simp] theorem State.raiseError_fill (s : State) (c : ErrCode) : (s.raiseError c).fill = s.fill := by
  unfold State.raiseError; split <;> rfl
@[simp] theorem State.raiseError_len (s : State) (c : ErrCode) : (s.raiseError c).len = s.len := by
  unfold State.raiseError; split <;> rfl
@[simp] theorem State.raiseError_digest (s : State) (c : ErrCode) : (s.raiseError c).digest = s.digest := by
  unfold State.raiseError; split <;> rfl
@[simp] theorem State.raiseError_din (s : State) (c : ErrCode) : (s.raiseError c).din = s.din := by
  unfold State.raiseError; split <;> rfl
@[simp] theorem State.raiseError_base (s : State) (c : ErrCode) : (s.raiseError c).base = s.base := by
  unfold State.raiseError; split <;> rfl
@[simp] theorem State.raiseError_inputs (s : State) (c : ErrCode) : (s.raiseError c).inputs = s.inputs := by
  unfold State.raiseError; split <;> rfl
@[simp] theorem State.raiseError_replies (s : State) (c : ErrCode) : (s.raiseError c).replies = s.replies := by
  unfold State.raiseError; split <;> rfl
@[simp] theorem State.raiseError_rngQueued (s : State) (c : ErrCode) : (s.raiseError c).rngQueued = s.rngQueued := by
  unfold State.raiseError; split <;> rfl
@[simp] theorem State.raiseError_rngMore (s : State) (c : ErrCode) : (s.raiseError c).rngMore = s.rngMore := by
  unfold State.raiseError; split <;> rfl
@[simp] theorem State.raiseError_rngDrawn (s : State) (c : ErrCode) : (s.raiseError c).rngDrawn = s.rngDrawn := by
  unfold State.raiseError; split <;> rfl

@[simp] theorem State.appendByte_phase (s : State) (x : Byte) : (s.appendByte x).phase = s.phase := by
  unfold State.appendByte; split <;> rfl
@[simp] theorem State.appendByte_var (s : State) (x : Byte) : (s.appendByte x).var = s.var := by
  unfold State.appendByte; split <;> rfl
@[simp] theorem State.appendByte_err (s : State) (x : Byte) : (s.appendByte x).err = s.err := by
  unfold State.appendByte; split <;> rfl
@[simp] theorem State.appendByte_salt (s : State) (x : Byte) : (s.appendByte x).salt = s.salt := by
  unfold State.appendByte; split <;> rfl
@[simp] theorem State.appendByte_len (s : State) (x : Byte) : (s.appendByte x).len = s.len := by
  unfold State.appendByte; split <;> rfl
@[simp] theorem State.appendByte_digest (s : State) (x : Byte) : (s.appendByte x).digest = s.digest := by
  unfold State.appendByte; split <;> rfl
@[simp] theorem State.appendByte_din (s : State) (x : Byte) : (s.appendByte x).din = s.din := by
  unfold State.appendByte; split <;> rfl
@[simp] theorem State.appendByte_base (s : State) (x : Byte) : (s.appendByte x).base = s.base := by
  unfold State.appendByte; split <;> rfl
@[simp] theorem State.appendByte_inputs (s : State) (x : Byte) : (s.appendByte x).inputs = s.inputs := by
  unfold State.appendByte; split <;> rfl
@[simp] theorem State.appendByte_replies (s : State) (x : Byte) : (s.appendByte x).replies = s.replies := by
  unfold State.appendByte; split <;> rfl
@[simp] theorem State.appendByte_rngQueued (s : State) (x : Byte) : (s.appendByte x).rngQueued = s.rngQueued := by
  unfold State.appendByte; split <;> rfl
@[simp] theorem State.appendByte_rngMore (s : State) (x : Byte) : (s.appendByte x).rngMore = s.rngMore := by
  unfold State.appendByte; split <;> rfl
@[simp] theorem State.appendByte_rngDrawn (s : State) (x : Byte) : (s.appendByte x).rngDrawn = s.rngDrawn := by
  unfold State.appendByte; split <;> rfl

@[simp] theorem State.padFinal_phase (s : State) : (s.padFinal).phase = s.phase := by
  unfold State.padFinal; split <;> rfl
@[simp] theorem State.padFinal_var (s : State) : (s.padFinal).var = s.var := by
  unfold State.padFinal; split <;> rfl
@[simp] theorem State.padFinal_err (s : State) : (s.padFinal).err = s.err := by
  unfold State.padFinal; split <;> rfl
@[simp] theorem State.padFinal_salt (s : State) : (s.padFinal).salt = s.salt := by
  unfold State.padFinal; split <;> rfl
@[simp] theorem State.padFinal_len (s : State) : (s.padFinal).len = s.len := by
  unfold State.padFinal; split <;> rfl
@[simp] theorem State.padFinal_digest (s : State) : (s.padFinal).digest = s.digest := by
  unfold State.padFinal; split <;> rfl
@[simp] theorem State.padFinal_din (s : State) : (s.padFinal).din = s.din := by
  unfold State.padFinal; split <;> rfl
@[simp] theorem State.padFinal_base (s : State) : (s.padFinal).base = s.base := by
  unfold State.padFinal; split <;> rfl
@[simp] theorem State.padFinal_inputs (s : State) : (s.padFinal).inputs = s.inputs := by
  unfold State.padFinal; split <;> rfl
@[simp] theorem State.padFinal_replies (s : State) : (s.padFinal).replies = s.replies := by
  unfold State.padFinal; split <;> rfl
@[simp] theorem State.padFinal_rngQueued (s : State) : (s.padFinal).rngQueued = s.rngQueued := by
  unfold State.padFinal; split <;> rfl
@[simp] theorem State.padFinal_rngMore (s : State) : (s.padFinal).rngMore = s.rngMore := by
  unfold State.padFinal; split <;> rfl
@[simp] theorem State.padFinal_rngDrawn (s : State) : (s.padFinal).rngDrawn = s.rngDrawn := by
  unfold State.padFinal; split <;> rfl

@[simp] theorem State.finalizeDigest_phase (s : State) : (s.finalizeDigest).phase = s.phase := by
  unfold State.finalizeDigest; split <;> rfl
@[simp] theorem State.finalizeDigest_var (s : State) : (s.finalizeDigest).var = s.var := by
  unfold State.finalizeDigest; split <;> rfl
@[simp] theorem State.finalizeDigest_err (s : State) : (s.finalizeDigest).err = s.err := by
  unfold State.finalizeDigest; split <;> rfl
@[simp] theorem State.finalizeDigest_salt (s : State) : (s.finalizeDigest).salt = s.salt := by
  unfold State.finalizeDigest; split <;> rfl
@[simp] theorem State.finalizeDigest_buf (s : State) : (s.finalizeDigest).buf = s.buf := by
  unfold State.finalizeDigest; split <;> rfl
@[simp] theorem State.finalizeDigest_fill (s : State) : (s.finalizeDigest).fill = s.fill := by
  unfold State.finalizeDigest; split <;> rfl
@[simp] theorem State.finalizeDigest_len (s : State) : (s.finalizeDigest).len = s.len := by
  unfold State.finalizeDigest; split <;> rfl
@[simp] theorem State.finalizeDigest_din (s : State) : (s.finalizeDigest).din = s.din := by
  unfold State.finalizeDigest; split <;> rfl
@[simp] theorem State.finalizeDigest_base (s : State) : (s.finalizeDigest).base = s.base := by
  unfold State.finalizeDigest; split <;> rfl
@[simp] theorem State.finalizeDigest_inputs (s : State) : (s.finalizeDigest).inputs = s.inputs := by
  unfold State.finalizeDigest; split <;> rfl
@[simp] theorem State.finalizeDigest_replies (s : State) : (s.finalizeDigest).replies = s.replies := by
  unfold State.finalizeDigest; split <;> rfl
@[simp] theorem State.finalizeDigest_rngQueued (s : State) : (s.finalizeDigest).rngQueued = s.rngQueued := by
  unfold State.finalizeDigest; split <;> rfl
@[simp] theorem State.finalizeDigest_rngMore (s : State) : (s.finalizeDigest).rngMore = s.rngMore := by
  unfold State.finalizeDigest; split <;> rfl
@[simp] theorem State.finalizeDigest_rngDrawn (s : State) : (s.finalizeDigest).rngDrawn = s.rngDrawn := by
  unfold State.finalizeDigest; split <;> rfl

@[simp] theorem State.saltWrite_phase (s : State) (w : Fin 4) (v : Word) : (s.saltWrite w v).phase = s.phase := by
  unfold State.saltWrite; split <;> simp
@[simp] theorem State.saltWrite_var (s : State) (w : Fin 4) (v : Word) : (s.saltWrite w v).var = s.var := by
  unfold State.saltWrite; split <;> simp
@[simp] theorem State.saltWrite_st (s : State) (w : Fin 4) (v : Word) : (s.saltWrite w v).st = s.st := by
  unfold State.saltWrite; split <;> simp
@[simp] theorem State.saltWrite_buf (s : State) (w : Fin 4) (v : Word) : (s.saltWrite w v).buf = s.buf := by
  unfold State.saltWrite; split <;> simp
@[simp] theorem State.saltWrite_fill (s : State) (w : Fin 4) (v : Word) : (s.saltWrite w v).fill = s.fill := by
  unfold State.saltWrite; split <;> simp
@[simp] theorem State.saltWrite_len (s : State) (w : Fin 4) (v : Word) : (s.saltWrite w v).len = s.len := by
  unfold State.saltWrite; split <;> simp
@[simp] theorem State.saltWrite_digest (s : State) (w : Fin 4) (v : Word) : (s.saltWrite w v).digest = s.digest := by
  unfold State.saltWrite; split <;> simp
@[simp] theorem State.saltWrite_din (s : State) (w : Fin 4) (v : Word) : (s.saltWrite w v).din = s.din := by
  unfold State.saltWrite; split <;> simp
@[simp] theorem State.saltWrite_base (s : State) (w : Fin 4) (v : Word) : (s.saltWrite w v).base = s.base := by
  unfold State.saltWrite; split <;> simp
@[simp] theorem State.saltWrite_inputs (s : State) (w : Fin 4) (v : Word) : (s.saltWrite w v).inputs = s.inputs := by
  unfold State.saltWrite; split <;> simp
@[simp] theorem State.saltWrite_replies (s : State) (w : Fin 4) (v : Word) : (s.saltWrite w v).replies = s.replies := by
  unfold State.saltWrite; split <;> simp
@[simp] theorem State.saltWrite_rngQueued (s : State) (w : Fin 4) (v : Word) : (s.saltWrite w v).rngQueued = s.rngQueued := by
  unfold State.saltWrite; split <;> simp
@[simp] theorem State.saltWrite_rngMore (s : State) (w : Fin 4) (v : Word) : (s.saltWrite w v).rngMore = s.rngMore := by
  unfold State.saltWrite; split <;> simp
@[simp] theorem State.saltWrite_rngDrawn (s : State) (w : Fin 4) (v : Word) : (s.saltWrite w v).rngDrawn = s.rngDrawn := by
  unfold State.saltWrite; split <;> simp

@[simp] theorem State.appendBytes_zero (s : State) : s.appendBytes 0 = s := rfl
theorem State.appendBytes_succ (s : State) (n : Nat) : s.appendBytes (n + 1) = (s.appendBytes n).appendByte (wordByte (s.appendBytes n).din n) := rfl

@[simp] theorem State.appendBytes_phase (s : State) (n : Nat) : (s.appendBytes n).phase = s.phase := by
  induction n with
  | zero => rfl
  | succ n ih => rw [State.appendBytes_succ, State.appendByte_phase, ih]
@[simp] theorem State.appendBytes_var (s : State) (n : Nat) : (s.appendBytes n).var = s.var := by
  induction n with
  | zero => rfl
  | succ n ih => rw [State.appendBytes_succ, State.appendByte_var, ih]
@[simp] theorem State.appendBytes_err (s : State) (n : Nat) : (s.appendBytes n).err = s.err := by
  induction n with
  | zero => rfl
  | succ n ih => rw [State.appendBytes_succ, State.appendByte_err, ih]
@[simp] theorem State.appendBytes_salt (s : State) (n : Nat) : (s.appendBytes n).salt = s.salt := by
  induction n with
  | zero => rfl
  | succ n ih => rw [State.appendBytes_succ, State.appendByte_salt, ih]
@[simp] theorem State.appendBytes_len (s : State) (n : Nat) : (s.appendBytes n).len = s.len := by
  induction n with
  | zero => rfl
  | succ n ih => rw [State.appendBytes_succ, State.appendByte_len, ih]
@[simp] theorem State.appendBytes_digest (s : State) (n : Nat) : (s.appendBytes n).digest = s.digest := by
  induction n with
  | zero => rfl
  | succ n ih => rw [State.appendBytes_succ, State.appendByte_digest, ih]
@[simp] theorem State.appendBytes_din (s : State) (n : Nat) : (s.appendBytes n).din = s.din := by
  induction n with
  | zero => rfl
  | succ n ih => rw [State.appendBytes_succ, State.appendByte_din, ih]
@[simp] theorem State.appendBytes_base (s : State) (n : Nat) : (s.appendBytes n).base = s.base := by
  induction n with
  | zero => rfl
  | succ n ih => rw [State.appendBytes_succ, State.appendByte_base, ih]
@[simp] theorem State.appendBytes_inputs (s : State) (n : Nat) : (s.appendBytes n).inputs = s.inputs := by
  induction n with
  | zero => rfl
  | succ n ih => rw [State.appendBytes_succ, State.appendByte_inputs, ih]
@[simp] theorem State.appendBytes_replies (s : State) (n : Nat) : (s.appendBytes n).replies = s.replies := by
  induction n with
  | zero => rfl
  | succ n ih => rw [State.appendBytes_succ, State.appendByte_replies, ih]
@[simp] theorem State.appendBytes_rngQueued (s : State) (n : Nat) : (s.appendBytes n).rngQueued = s.rngQueued := by
  induction n with
  | zero => rfl
  | succ n ih => rw [State.appendBytes_succ, State.appendByte_rngQueued, ih]
@[simp] theorem State.appendBytes_rngMore (s : State) (n : Nat) : (s.appendBytes n).rngMore = s.rngMore := by
  induction n with
  | zero => rfl
  | succ n ih => rw [State.appendBytes_succ, State.appendByte_rngMore, ih]
@[simp] theorem State.appendBytes_rngDrawn (s : State) (n : Nat) : (s.appendBytes n).rngDrawn = s.rngDrawn := by
  induction n with
  | zero => rfl
  | succ n ih => rw [State.appendBytes_succ, State.appendByte_rngDrawn, ih]

/-- `finalize_digest()` in V1 (44_finalize.md R188). -/
theorem State.finalizeDigest_v1 {s : State} (h : s.var = .v1) :
    s.finalizeDigest =
      { s with st := s.st.set 0 (roundsV1 s.st[0]), digest := saltXor s.salt (serializeV1 (roundsV1 s.st[0])) } := by
  unfold State.finalizeDigest; rw [h]

/-- `finalize_digest()` in V2 (44_finalize.md R188). -/
theorem State.finalizeDigest_v2 {s : State} (h : s.var = .v2) :
    s.finalizeDigest = { s with st := roundsV2 s.st, digest := saltXor s.salt (serializeV2 (roundsV2 s.st)) } := by
  unfold State.finalizeDigest; rw [h]

theorem State.padFinal_of_empty {s : State} (h : s.fill = 0) : s.padFinal = s := by
  unfold State.padFinal; rw [if_pos h]

theorem State.padFinal_of_partial {s : State} (h : s.fill ≠ 0) : s.padFinal = s.absorbBuffer := by
  unfold State.padFinal; rw [if_neg h]

@[simp] theorem State.padFinal_fill (s : State) : s.padFinal.fill = 0 := by
  unfold State.padFinal
  split
  · assumption
  · rfl

end Sys2Proof.Machine
end

