-- ==== Sys2Proof/Laws/Padder.lean ====
section
/-! SUPPORT. What the padder does over many bytes, and the blocks of a byte list (41_padder.md R120 to R126). -/

namespace Sys2Proof.Machine

/-- What `n` calls of `append_byte` leave (41_padder.md R122, R124): the fields they do not touch are in Laws/State.lean. -/
theorem State.appendBytes_spec (s : State) (n : Nat) (hn : n ≤ 4) :
    (s.appendBytes n).fill.val = (s.fill.val + n) % 32 ∧
    (s.fill.val + n < 32 → (s.appendBytes n).st = s.st ∧ ∀ (p : Nat) (h : p < 32), (s.appendBytes n).buf[p] =
      if s.fill.val ≤ p ∧ p < s.fill.val + n then wordByte s.din (p - s.fill.val) else s.buf[p]) ∧
    (32 ≤ s.fill.val + n →
      (∃ B : Vector Byte 32, (s.appendBytes n).st = absorbBlock s.var s.salt B s.st ∧ ∀ (p : Nat) (h : p < 32),
        B[p] = if p < s.fill.val then s.buf[p] else wordByte s.din (p - s.fill.val)) ∧
      ∀ (p : Nat) (h : p < 32), (s.appendBytes n).buf[p] =
        if p + 32 < s.fill.val + n then wordByte s.din (p + 32 - s.fill.val) else 0) := by
  have hf := s.fill.isLt
  induction n with
  | zero =>
    exact ⟨by simp; omega, fun _ => ⟨rfl, fun p hp => by rw [if_neg (by omega)]; rfl⟩, fun h => by omega⟩
  | succ n ih =>
    obtain ⟨h1, h5, h6⟩ := ih (by omega)
    have h2 : (s.appendBytes n).din = s.din := by simp
    have h3 : (s.appendBytes n).var = s.var := by simp
    have h4 : (s.appendBytes n).salt = s.salt := by simp
    rw [State.appendBytes_succ]
    generalize s.appendBytes n = u at *
    unfold State.appendByte
    by_cases hfl : u.fill.val + 1 < 32
    · simp only [hfl, ↓reduceDIte]
      refine ⟨?_, ?_, ?_⟩
      · show u.fill.val + 1 = _
        omega
      · intro h
        obtain ⟨h51, h52⟩ := h5 (by omega)
        refine ⟨h51, fun p hp => ?_⟩
        simp only [State.writeBuf, Vector.getElem_set, h52 p hp, h2]
        split_ifs <;> first | rfl | (exfalso; omega) | (congr 1; omega)
      · intro h
        obtain ⟨⟨B, h61, h62⟩, h63⟩ := h6 (by omega)
        refine ⟨⟨B, h61, h62⟩, fun p hp => ?_⟩
        simp only [State.writeBuf, Vector.getElem_set, h63 p hp, h2]
        split_ifs <;> first | rfl | (exfalso; omega) | (congr 1; omega)
    · simp only [hfl, ↓reduceDIte]
      refine ⟨?_, ?_, ?_⟩
      · simp
        omega
      · intro h
        omega
      · intro h
        obtain ⟨h51, h52⟩ := h5 (by omega)
        refine ⟨⟨u.buf.set u.fill.val (wordByte u.din n), ?_, fun p hp => ?_⟩, fun p hp => ?_⟩
        · simp [h51, h3, h4]
        · simp only [Vector.getElem_set, h52 p hp, h2]
          split_ifs <;> first | rfl | (exfalso; omega) | (congr 1; omega)
        · rw [if_neg (by omega)]
          simp

/-- A block's bytes. -/
theorem blockOf_getElem (B : List Byte) (m p : Nat) (h : p < 32) : (blockOf B m)[p] = B.getD (32 * m + p) 0 := by
  simp [blockOf]

/-- A whole block does not see what comes after it. -/
theorem blockOf_append (B C : List Byte) (m : Nat) (h : 32 * m + 32 ≤ B.length) : blockOf (B ++ C) m = blockOf B m := by
  ext1 p hp
  rw [blockOf_getElem, blockOf_getElem, List.getD_append _ _ _ _ (by omega)]

/-- The zero fill changes no block (41_padder.md R120). -/
theorem blockOf_append_zeros (B : List Byte) (k m : Nat) : blockOf (B ++ List.replicate k 0) m = blockOf B m := by
  ext1 p hp
  rw [blockOf_getElem, blockOf_getElem]
  by_cases h : 32 * m + p < B.length
  · rw [List.getD_append _ _ _ _ h]
  · rw [List.getD_append_right _ _ _ _ (by omega), List.getD_eq_default (l := B) (hn := by omega)]
    simp only [List.getD_eq_getElem?_getD, List.getElem?_replicate]
    split <;> rfl

/-- A block past the end is zero. -/
theorem blockOf_past (B : List Byte) (m : Nat) (h : B.length ≤ 32 * m) : blockOf B m = Vector.replicate 32 0 := by
  ext1 p hp
  rw [blockOf_getElem, List.getD_eq_default _ _ (by omega)]
  simp

/-- One more byte goes into the current block. -/
theorem blockOf_snoc (B : List Byte) (b : Byte) :
    (blockOf B (B.length / 32)).set (B.length % 32) b (by omega) = blockOf (B ++ [b]) (B.length / 32) := by
  ext1 p hp
  rw [Vector.getElem_set, blockOf_getElem, blockOf_getElem]
  by_cases hq : B.length % 32 = p
  · rw [if_pos hq, List.getD_append_right _ _ _ _ (by omega), show 32 * (B.length / 32) + p - B.length = 0 by omega]
    rfl
  · rw [if_neg hq]
    by_cases h2 : 32 * (B.length / 32) + p < B.length
    · rw [List.getD_append _ _ _ _ h2]
    · rw [List.getD_append_right _ _ _ _ (by omega), List.getD_eq_default _ _ (by omega),
        List.getD_eq_default _ _ (by simp; omega)]

/-- A fold over blocks depends on those blocks only. -/
theorem fold_blockOf_congr {α : Type} (f : Vector Byte 32 → α → α) (B C : List Byte) (n : Nat)
    (h : ∀ m, m < n → blockOf B m = blockOf C m) (a : α) :
    Nat.fold n (fun m _ st => f (blockOf B m) st) a = Nat.fold n (fun m _ st => f (blockOf C m) st) a := by
  induction n with
  | zero => simp
  | succ n ih =>
    rw [Nat.fold_succ, Nat.fold_succ, ih (fun m hm => h m (Nat.lt_succ_of_lt hm)), h n (Nat.lt_succ_self n)]

/-- The bytes APPEND takes, one at a time (41_padder.md R124). -/
theorem dinBytes_succ (d : Word) (n : Nat) : dinBytes d (n + 1) = dinBytes d n ++ [wordByte d n] := by
  simp [dinBytes, List.range_succ]

theorem dinBytes_length (d : Word) (n : Nat) : (dinBytes d n).length = n := by simp [dinBytes]

end Sys2Proof.Machine
end

