-- ==== Sys2Proof/Laws/PerInstr.lean ====
section
/-! SUPPORT. The per-command family `F`: what holds of every command as syntax (30_encoding.md R80 to R84). -/

namespace Sys2Proof.Laws.F

/-- A well-formed command's word decodes to it, sets no reserved bit, and matches the one table row with its mnemonic
(30_encoding.md R80, R83, R84). -/
def Statement (i : Instr) : Prop :=
  WellFormed i → decode (encode i) = .ok i ∧ rsvField (encode i) = 0 ∧
    (opcodeTable.filter fun r => r.selects (encode i)).map OpcodeRow.mnemonic = [i.mnemonic]

theorem nop : Statement .nop := fun _ => by decide

theorem startV1 : Statement .startV1 := fun _ => by decide

theorem startV2 : Statement .startV2 := fun _ => by decide

theorem startV2R : Statement .startV2R := fun _ => by decide

theorem append (n : Nat) : Statement (.append n) := by
  intro h
  have h : 1 ≤ n ∧ n ≤ 4 := by simpa [WellFormed, Instr.wellFormed] using h
  obtain ⟨h1, h4⟩ := h
  interval_cases n <;> decide

theorem finalize : Statement .finalize := fun _ => by decide

theorem abort : Statement .abort := fun _ => by decide

end Sys2Proof.Laws.F
end

