-- ==== Sys2Proof/Laws/Step.lean ====
section
/-! SUPPORT. What a command, a register write and a step can do, said once: the inversion lemmas the proofs about the whole
machine cite instead of unfolding `exec` and `step`. -/

namespace Sys2Proof.Machine

/-- Recording an error as one record update (60_exceptions.md R231). -/
theorem State.raiseError_eq (s : State) (c : ErrCode) :
    s.raiseError c = { s with err := if s.err = .noError then c else s.err } := by
  unfold State.raiseError
  split <;> simp [*]

/-- Every way a command completes. -/
theorem exec_next {i : Instr} {s t : State} (h : exec i s = .next t) :
    (i = .nop ∧ t = s) ∨
    (i = .startV1 ∧ t = s.setV1Salt.selectV1.startBuffer.openComputation) ∨
    (i = .startV2 ∧ t = s.selectV2.startBuffer.openComputation) ∨
    (i = .startV2R ∧ s.drawsReady = true ∧ t = s.drawSalt.selectV2.startBuffer.openComputation) ∨
    (∃ n, i = .append n ∧ 1 ≤ n ∧ n ≤ 4 ∧
      ((s.phase = .absorb ∧ t = s.appendDin n) ∨ (s.phase ≠ .absorb ∧ t = s.raiseError .sequence))) ∨
    (i = .finalize ∧ ((s.phase = .absorb ∧ t = s.padFinal.finalizeDigest.closeComputation) ∨
      (s.phase ≠ .absorb ∧ t = s.raiseError .sequence))) ∨
    (i = .abort ∧ t = s.resetEngine) := by
  cases i with
  | nop => injection h with h; simp [h]
  | startV1 => injection h with h; simp [h]
  | startV2 => injection h with h; simp [h]
  | startV2R =>
    simp only [exec, execStartV2R] at h
    split at h
    · injection h with h; simp [*]
    · contradiction
  | append n =>
    simp only [exec, execAppend] at h
    split_ifs at h <;> injection h with h <;> simp [*]
  | finalize =>
    simp only [exec, execFinalize] at h
    split_ifs at h <;> injection h with h <;> simp [*]
  | abort => injection h with h; simp [h]

/-- A command leaves the window, the inputs and the replies alone (20_memory.md R65; log entries 1 to 3). -/
theorem exec_surroundings {i : Instr} {s t : State} (h : exec i s = .next t) :
    t.base = s.base ∧ t.inputs = s.inputs ∧ t.replies = s.replies := by
  rcases exec_next h with ⟨-, rfl⟩ | ⟨-, rfl⟩ | ⟨-, rfl⟩ | ⟨-, -, rfl⟩ | ⟨n, -, -, -, ⟨-, rfl⟩ | ⟨-, rfl⟩⟩ |
    ⟨-, ⟨-, rfl⟩ | ⟨-, rfl⟩⟩ | ⟨-, rfl⟩ <;> simp [State.appendDin]

/-- The only fault is START_V2R's stall (70_reset_and_hazards.md R276). -/
theorem exec_fault {i : Instr} {s : State} {f : Fault} (h : exec i s = .fault f) :
    i = .startV2R ∧ s.drawsReady = false ∧ f = .randomStall := by
  cases i with
  | startV2R =>
    simp only [exec, execStartV2R] at h
    split at h
    · contradiction
    · injection h with h; simp_all
  | append n => simp only [exec, execAppend] at h; split_ifs at h
  | finalize => simp only [exec, execFinalize] at h; split_ifs at h
  | nop => contradiction
  | startV1 => contradiction
  | startV2 => contradiction
  | abort => contradiction

/-- A write to CMD, by what its word decodes to (45_commands.md R200). -/
theorem State.executeCommand_of_ok {s : State} {v : Word} {i : Instr} (h : decode v = .ok i) :
    s.executeCommand v = exec i s := by
  unfold State.executeCommand; rw [h]

theorem State.executeCommand_of_error {s : State} {v : Word} {e : DecodeError} (h : decode v = .error e) :
    s.executeCommand v = .next (s.raiseError .illegal) := by
  unfold State.executeCommand; rw [h]

/-- The SALT registers' offsets (20_memory.md R55). -/
theorem regAt_salt (w : Nat) (h : w < 4) : regAt (0x10 + 4 * w) = .salt ⟨w, h⟩ := by
  unfold regAt
  rw [if_neg (by omega), if_neg (by omega), if_neg (by omega), dif_pos (by omega)]
  simp

/-- The DIGEST registers' offsets (20_memory.md R55). -/
theorem regAt_digest (w : Nat) (h : w < 8) : regAt (0x20 + 4 * w) = .digest ⟨w, h⟩ := by
  unfold regAt
  rw [if_neg (by omega), if_neg (by omega), if_neg (by omega), dif_neg (by omega), dif_pos (by omega)]
  simp

/-- Every way a register write completes. -/
theorem State.regWrite_next {s t : State} {r : Reg} {v : Word} (h : s.regWrite r v = .next t) :
    (r = .cmd ∧ ((∃ i, decode v = .ok i ∧ exec i s = .next t) ∨
      ((∃ e, decode v = .error e) ∧ t = s.raiseError .illegal))) ∨
    (r = .din ∧ t = s.writeDin v) ∨
    (∃ w, r = .salt w ∧ ((s.phase = .absorb ∧ t = s.raiseError .locked) ∨
      (s.phase ≠ .absorb ∧ t = s.writeSaltWord w v))) ∨
    (r ≠ .cmd ∧ r ≠ .din ∧ (∀ w, r ≠ .salt w) ∧ t = s) := by
  cases r with
  | cmd =>
    change s.executeCommand v = _ at h
    cases hd : decode v with
    | ok i => rw [State.executeCommand_of_ok hd] at h; simp [h]
    | error e =>
      rw [State.executeCommand_of_error hd] at h
      injection h with h
      simp [h]
  | din => injection h with h; simp [h]
  | salt w =>
    simp only [State.regWrite, State.saltWrite] at h
    injection h with h
    split at h <;> simp [*]
  | status => injection h with h; simp [h]
  | digest w => injection h with h; simp [h]
  | state k => injection h with h; simp [h]
  | lenLo => injection h with h; simp [h]
  | lenHi => injection h with h; simp [h]
  | reserved => injection h with h; simp [h]

/-- Inside the window, an access is the offset it names (20_memory.md R56). -/
theorem windowOffset_of_mem (base off : Nat) (h1 : off < 0x100) (h2 : off % 4 = 0) :
    windowOffset base (base + off) 4 = some off := by
  unfold windowOffset
  rw [if_pos (by omega)]
  congr 1; omega

/-- The offset an admitted access names (20_memory.md R56). -/
theorem windowOffset_some {base addr size off : Nat} (h : windowOffset base addr size = some off) :
    size = 4 ∧ addr = base + off ∧ off < 0x100 ∧ off % 4 = 0 := by
  unfold windowOffset at h
  split at h
  · injection h with h; omega
  · contradiction

/-- A pending access completes as it stands, but for a stalled one that reset abandons. -/
theorem State.pendingUntilReset_next {s t : State} {r : Result} (h : s.pendingUntilReset r = .next t) :
    r = .next t ∨ (r = .fault .randomStall ∧ s.inputs.head? = some .rst ∧ t = s.takeQueuedBytes) := by
  unfold State.pendingUntilReset at h
  split at h
  · rename_i h1
    injection h with h
    exact .inr ⟨rfl, by simp [h1], h.symm⟩
  · exact .inl h

theorem State.pendingUntilReset_of_next (s t : State) : s.pendingUntilReset (.next t) = .next t := rfl

/-- Every way a step completes. -/
theorem step_next {s t : State} (h : step s = .next t) :
    (s.inputs = [] ∧ t = s) ∨
    (∃ rest, s.inputs = .rst :: rest ∧ t = (s.withInputs rest).resetEngine) ∨
    (∃ off rest, s.inputs = .read (s.base + off) 4 :: rest ∧ off < 0x100 ∧ off % 4 = 0 ∧
      t = (s.withInputs rest).reply (s.regRead (regAt off))) ∨
    (∃ off v rest, s.inputs = .write (s.base + off) 4 v :: rest ∧ off < 0x100 ∧ off % 4 = 0 ∧
      (s.withInputs rest).regWrite (regAt off) v = .next t) ∨
    (∃ rest, s.inputs = .write s.base 4 0x00000301 :: .rst :: rest ∧ s.drawsReady = false ∧
      t = (s.withInputs (.rst :: rest)).takeQueuedBytes) := by
  unfold step State.serve at h
  cases hi : s.inputs with
  | nil => rw [hi] at h; injection h with h; simp [h]
  | cons a rest =>
    rw [hi] at h
    cases a with
    | rst => injection h with h; simp [h]
    | read addr size =>
      simp only [State.readAccess, State.withInputs_base] at h
      cases hw : windowOffset s.base addr size with
      | none => rw [hw] at h; contradiction
      | some off =>
        rw [hw] at h
        injection h with h
        obtain ⟨rfl, rfl, h1, h2⟩ := windowOffset_some hw
        exact .inr (.inr (.inl ⟨off, rest, rfl, h1, h2, h.symm⟩))
    | write addr size v =>
      simp only [State.writeAccess, State.withInputs_base] at h
      cases hw : windowOffset s.base addr size with
      | none => rw [hw] at h; contradiction
      | some off =>
        rw [hw] at h
        obtain ⟨rfl, rfl, h1, h2⟩ := windowOffset_some hw
        rcases State.pendingUntilReset_next h with h | ⟨hf, hr, ht⟩
        · exact .inr (.inr (.inr (.inl ⟨off, v, rest, rfl, h1, h2, h⟩)))
        · have hc : regAt off = .cmd := by
            cases hreg : regAt off <;> rw [hreg] at hf <;> first | rfl | contradiction
          have h0 : off = 0 := by
            unfold regAt at hc
            split_ifs at hc
            assumption
          subst h0
          change (s.withInputs rest).executeCommand v = _ at hf
          cases hd : decode v with
          | error e => rw [State.executeCommand_of_error hd] at hf; contradiction
          | ok i =>
            rw [State.executeCommand_of_ok hd] at hf
            obtain ⟨rfl, hn, -⟩ := exec_fault hf
            have hv : v = 0x00000301 := by
              have hv := v.isLt
              rw [decode_eq_of_toNat] at hd
              split_ifs at hd <;> simp only [Except.ok.injEq, reduceCtorEq] at hd
              apply BitVec.eq_of_toNat_eq
              simp only [BitVec.ofNat_eq_ofNat, BitVec.toNat_ofNat, Nat.reducePow, Nat.reduceMod]
              omega
            subst hv
            cases rest with
            | nil => simp at hr
            | cons b tl =>
              simp only [State.withInputs_inputs, List.head?_cons, Option.some.injEq] at hr
              subst hr
              exact .inr (.inr (.inr (.inr ⟨tl, rfl, hn, ht⟩)))

/-- A read access of the contract is one step (20_memory.md R57, R64). -/
theorem step_read {s : State} {off : Nat} {rest : List Input} (h1 : off < 0x100) (h2 : off % 4 = 0)
    (hi : s.inputs = .read (s.base + off) 4 :: rest) :
    step s = .next ((s.withInputs rest).reply (s.regRead (regAt off))) := by
  simp only [step, State.serve, hi, State.readAccess, State.withInputs_base, windowOffset_of_mem s.base off h1 h2]
  rfl

/-- A write access of the contract is one step (20_memory.md R58, R64). -/
theorem step_write {s : State} {off : Nat} {v : Word} {rest : List Input} (h1 : off < 0x100) (h2 : off % 4 = 0)
    (hi : s.inputs = .write (s.base + off) 4 v :: rest) :
    step s = (s.withInputs rest).pendingUntilReset ((s.withInputs rest).regWrite (regAt off) v) := by
  simp only [step, State.serve, hi, State.writeAccess, State.withInputs_base, windowOffset_of_mem s.base off h1 h2]

/-- A CMD write whose command completes is one step (45_commands.md R200). -/
theorem step_command {s t : State} {i : Instr} {v : Word} {rest : List Input} (hi : s.inputs = .write s.base 4 v :: rest)
    (hd : decode v = .ok i) (he : exec i (s.withInputs rest) = .next t) : step s = .next t := by
  rw [step_write (off := 0) (by omega) (by omega) hi]
  show State.pendingUntilReset _ (State.executeCommand _ v) = _
  rw [State.executeCommand_of_ok hd, he]
  rfl

/-- A CMD write of an illegal word is one step (45_commands.md R200; 30_encoding.md R85). -/
theorem step_illegal {s : State} {e : DecodeError} {v : Word} {rest : List Input}
    (hi : s.inputs = .write s.base 4 v :: rest) (hd : decode v = .error e) :
    step s = .next ((s.withInputs rest).raiseError .illegal) := by
  rw [step_write (off := 0) (by omega) (by omega) hi]
  show State.pendingUntilReset _ (State.executeCommand _ v) = _
  rw [State.executeCommand_of_error hd]
  rfl

/-- A run's first step. -/
theorem run_succ {s t : State} (k : Nat) (h : step s = .next t) :
    Sys2Proof.core.run (k + 1) s = Sys2Proof.core.run k t := by
  have h' : Sys2Proof.core.step s = .next t := h
  simp only [Host.Core.run, h']

/-- A run in two parts. -/
theorem run_add {s t : State} (j k : Nat) (h : Sys2Proof.core.run j s = .next t) :
    Sys2Proof.core.run (j + k) s = Sys2Proof.core.run k t := by
  induction j generalizing s with
  | zero => injection h with h; subst h; simp
  | succ j ih =>
    rw [show j + 1 + k = (j + k) + 1 by omega]
    cases hs : step s with
    | next u => rw [run_succ _ hs] at h ⊢; exact ih h
    | fault f =>
      have hs' : Sys2Proof.core.step s = .fault f := hs
      simp only [Host.Core.run, hs'] at h
      contradiction
    | refused r =>
      have hs' : Sys2Proof.core.step s = .refused r := hs
      simp only [Host.Core.run, hs'] at h
      contradiction

end Sys2Proof.Machine
end

