-- ==== Sys2Proof/Tests/Slice0.lean ====
section
/-! SUPPORT. The model's own tests: expected values are those of 95_test_vectors.md (named in each comment) or are worked out by
hand from the rule named; then, for every statement of Certificates/Slice0/Obligations.lean that has hypotheses, a witness
that meets them. `decide +kernel` is evaluation by the kernel, which sees through the loops' irreducibility. -/

namespace Sys2Proof.Tests

open Sys2Proof Sys2Proof.Machine

/-- The state a command or a step leaves, if it answers one. -/
def after (r : Result) : Option State :=
  match r with
  | .next t => some t
  | .fault _ => none
  | .refused _ => none

/-- The state an accepted command leaves, else the state before it. -/
def did (i : Instr) (s : State) : State := (after (exec i s)).getD s

/-- `0x00636261` in DIN: "abc" (95_test_vectors.md P1). -/
def abc (s : State) : State := { s with din := 0x00636261 }

/-- In ABSORB after START_V1, with "abc" in DIN. -/
def v1Abc : State := abc (did .startV1 State.reset)

/-- In ABSORB after START_V2 with the zero salt, with "abc" in DIN. -/
def v2Abc : State := abc (did .startV2 State.reset)

/-- In ABSORB with the next APPEND 4 completing the first block. -/
def nearFull : State := { v1Abc with fill := 28 }

/-- In ABSORB on a block boundary. -/
def boundary : State := { v1Abc with fill := 0, buf := Vector.replicate 32 0 }

/-- A source that knows the bytes `00 11 .. ff` and delivers nothing after them (95_test_vectors.md P5). -/
def queued : State := { State.reset with rngQueued := v1Salt.toList, rngMore := false }

/-- A source one byte short. -/
def short : State := { State.reset with rngQueued := List.replicate 15 0, rngMore := false }

/-- `s` with the inputs `l`. -/
def given (l : List Input) (s : State) : State := { s with inputs := l }

/-! ### Syntax and decoding -/

/-- The ill-formed terms, which the one check of WellFormed refuses (30_encoding.md R81). -/
theorem test_wellFormed_refuses : ¬ WellFormed (.append 0) ∧ ¬ WellFormed (.append 5) ∧ WellFormed (.append 1) ∧
    WellFormed (.append 4) := by decide

/-- NOP: OP = 0x00, F = 0 (30_encoding.md R83). -/
theorem test_decode_nop : decode 0b00000000000000000000000000000000 = .ok .nop := by decide

/-- START: OP = 0x01, VS = bit 8, SS = bit 9 (30_encoding.md R80, R83). -/
theorem test_decode_start : decode 0b00000000000000000000000000000001 = .ok .startV1 ∧
    decode 0b00000000000000000000000100000001 = .ok .startV2 ∧
    decode 0b00000000000000000000001100000001 = .ok .startV2R := by decide

/-- APPEND: OP = 0x02, NM1 = n - 1 in bits 9:8 (30_encoding.md R80, R81). -/
theorem test_decode_append : decode 0b00000000000000000000000000000010 = .ok (.append 1) ∧
    decode 0b00000000000000000000000100000010 = .ok (.append 2) ∧
    decode 0b00000000000000000000001000000010 = .ok (.append 3) ∧
    decode 0b00000000000000000000001100000010 = .ok (.append 4) := by decide

/-- FINALIZE: OP = 0x03 (30_encoding.md R83). -/
theorem test_decode_finalize : decode 0b00000000000000000000000000000011 = .ok .finalize := by decide

/-- ABORT: OP = 0x04 (30_encoding.md R83). -/
theorem test_decode_abort : decode 0b00000000000000000000000000000100 = .ok .abort := by decide

/-- The illegal words of 95_test_vectors.md EN-5, EN-7, EN-9, EN-11, EN-12, EN-13. -/
theorem test_decode_illegal : ([0x201, 0x402, 0x103, 0x100, 0x200, 0x300, 0x5, 0xff, 0x80000001] : List Word).all
    (fun w => match decode w with | .ok _ => false | .error _ => true) = true := by decide

/-- The table's words as the host numbers them; what does not fit in a word is refused (log entry 16). -/
theorem test_decodeTableWord : decodeTableWord 32 0x302 = some (.append 4) ∧ decodeTableWord 32 0x3 = some .finalize ∧
    decodeTableWord 32 0x201 = none ∧ decodeTableWord 32 0x100000001 = none := by decide

/-- The first step after reset runs the word `withFetchWord` places: START_V1 (CF-1). -/
theorem test_fetch_startV1 : (after (step (State.reset.withFetchWord 32 0x1))).map State.statusWord = some 0x1001 := by
  decide +kernel

/-! ### Primitives -/

/-- 95_test_vectors.md PR-3, PR-6, PR-12, PR-15, PR-17. -/
theorem test_rotate_multiply : rotl32 0x12345678 4 = 0x23456781 ∧ rotl32 0x12345678 36 = 0x23456781 ∧
    rotr32 0x12345678 15 = 0xacf02468 ∧ 0x00000001 * constC1 = 0x5bd1e995 ∧ 0xffffffff * constC1 = 0xa42e166b := by decide

/-- 95_test_vectors.md PR-34, PR-37, PR-40, PR-42. -/
theorem test_mix : mix1 0xdeadbeef = 0x23db53ce ∧ emix 0x00000001 = 0x827bd04b ∧ emix 0xdeadbeef = 0xc035bb25 ∧
    roundV1 0xdeadbeef = 0xa8d86faa := by decide

/-! ### Commands, one step each -/

/-- CF-8: NOP leaves everything. -/
theorem test_nop : after (step (given [.write 0 4 0x0] v1Abc)) = some v1Abc := by decide +kernel

/-- CF-1: START_V1 from reset. -/
theorem test_startV1 : ((did .startV1 State.reset).statusWord, (did .startV1 State.reset).st[0],
    (did .startV1 State.reset).regRead (.salt 0)) = (0x1001, 0xdeadbeef, 0x33221100) := by decide +kernel

/-- CF-2: START_V2 from reset. -/
theorem test_startV2 : ((did .startV2 State.reset).statusWord, (did .startV2 State.reset).st[1],
    (did .startV2 State.reset).st[2]) = (0x1005, 0xf0e21567, 0x03166bdf) := by decide +kernel

/-- CF-6: START_V2 in ABSORB keeps the V1 pattern as its salt. -/
theorem test_startV2_restart : ((did .startV2 v1Abc).statusWord, (did .startV2 v1Abc).st[0]) = (0x1005, 0xed8fafef) := by
  decide +kernel

/-- P5: START_V2R with the bytes `00 11 .. ff`. -/
theorem test_startV2R : ((did .startV2R queued).regRead (.salt 3), (did .startV2R queued).st[0],
    (did .startV2R queued).rngQueued) = (0xffeeddcc, 0xed8fafef, []) := by decide +kernel

/-- 70_reset_and_hazards.md R276: one byte short, no step. -/
theorem test_startV2R_stalls : after (exec .startV2R short) = none := by decide

/-- CF-3: APPEND 3 of "abc". -/
theorem test_append : ((did (.append 3) v1Abc).statusWord, (did (.append 3) v1Abc).len, (did (.append 3) v1Abc).din) =
    (0x1301, 3, 0x00636261) := by decide +kernel

/-- PD-5: from FILL 31, APPEND 3 completes the block with one byte and starts the next with two. -/
theorem test_append_crosses : (did (.append 3) { v1Abc with fill := 31 }).statusWord = 0x0201 ∧
    (did (.append 3) { v1Abc with fill := 31 }).buf[0] = 0x62 ∧ (did (.append 3) { v1Abc with fill := 31 }).buf[1] = 0x63 := by
  decide +kernel

/-- V1-3: the digest of "abc" under V1. -/
theorem test_finalize_v1 : (List.finRange 8).map (fun w => (did .finalize (did (.append 3) v1Abc)).regRead (.digest w)) =
    [0x0d19a2ff, 0x4cd5aa7a, 0x0855a7b3, 0x00d0e67f, 0x3e3bb3ff, 0x3bb3ff3e, 0xb3ff3e3b, 0xff3e3bb3] := by decide +kernel

/-- V2-3: the state after 12 rounds for "abc" and the zero salt. -/
theorem test_finalize_v2 : ((did .finalize (did (.append 3) v2Abc)).st[0], (did .finalize (did (.append 3) v2Abc)).st[15],
    (did .finalize (did (.append 3) v2Abc)).statusWord) = (0x456be388, 0x87a9baad, 0x6) := by decide +kernel

/-- CF-7: ABORT, with an error recorded. -/
theorem test_abort : after (exec .abort { v1Abc with err := .sequence }) = some State.reset := by decide +kernel

/-! ### Accesses and errors, one step each -/

/-- ER-1, ER-2: SEQUENCE outside ABSORB; ER-7: ILLEGAL. -/
theorem test_errors : [0x2, 0x3, 0x100].map (fun w => (after (step (State.reset.withFetchWord 32 w))).map State.statusWord) =
    [some 0x20, some 0x20, some 0x10] := by decide +kernel

/-- ER-4: an illegal word in ABSORB records ILLEGAL, PHASE and FILL stay. -/
theorem test_illegal_step : (after (step (given [.write 0 4 0x5] v1Abc))).map State.statusWord = some 0x1011 := by
  decide +kernel

/-- 60_exceptions.md R239: `done` in DONE only, `err` with an error recorded only. -/
theorem test_outputs : ((did .finalize v1Abc).doneOut, v1Abc.doneOut, v1Abc.errOut, (did .finalize State.reset).errOut) =
    (true, false, false, true) := by decide +kernel

/-- ER-9: a SALT write in ABSORB. -/
theorem test_salt_locked : (after (step (given [.write 0x10 4 0xAAAAAAAA] v1Abc))).map
    (fun t => (t.statusWord, t.regRead (.salt 0))) = some (0x1031, 0x33221100) := by decide +kernel

/-- SA-3: a SALT write in IDLE, low byte first. -/
theorem test_salt_write : (after (step (given [.write 0x10 4 0x04030201] State.reset))).map
    (fun t => (t.salt[0], t.salt[3], t.salt[4])) = some (0x01, 0x04, 0x00) := by decide +kernel

/-- ER-12, ER-16: STATUS ignores writes, reserved offsets read 0. -/
theorem test_ignored : after (step (given [.write 0x04 4 0xFFFFFFFF] State.reset)) = some State.reset ∧
    (after (step (given [.read 0xFC 4] v1Abc))).map State.replies = some [0] := by decide +kernel

/-- 20_memory.md R56: outside the contract there is no step. -/
theorem test_outside : after (step (given [.read 0x100 4] State.reset)) = none ∧
    after (step (given [.write 0x08 2 1] State.reset)) = none ∧ after (step (given [.read 0x02 4] State.reset)) = none := by
  decide +kernel

/-- RS-1: reset as a step, from the middle of a computation. -/
theorem test_reset : after (step (given [.rst] nearFull)) = some State.reset := by decide +kernel

/-! ### Witnesses: the hypotheses of the statements can be met -/

/-- For DecodeAndEncodeAgree, both sides, at the ends of NM1's range. -/
theorem witness_DecodeAndEncodeAgree : (decode 0x00000002 = .ok (.append 1) ∧ WellFormed (.append 1)) ∧
    decode 0x00000302 = .ok (.append 4) ∧ encode (.append 4) = 0x00000302 := by decide

/-- For TableRowSelectsTheCommand: a word a row selects, and one that none does. -/
theorem witness_TableRowSelectsTheCommand :
    (∃ r ∈ opcodeTable, r.selects 0x00000302 = true) ∧ ∀ r ∈ opcodeTable, r.selects 0x00000005 = false := by decide

/-- For IllegalWordsRecordIllegal: each group of R85, at its lower end. -/
theorem witness_IllegalWordsRecordIllegal : decode 0x00000400 = .error .reservedBits ∧
    decode 0x00000005 = .error .reservedOpcode ∧ decode 0x00000100 = .error .reservedField ∧
    decode 0x00000103 = .error .reservedField ∧ decode 0x00000104 = .error .reservedField ∧
    decode 0x00000201 = .error .reservedField := by decide

/-- For RotateLeftMovesEachBit: the last bit, a distance of 0 modulo 32. -/
theorem witness_RotateLeftMovesEachBit : (31 : Nat) < 32 ∧ (32 : Nat) % 32 = 0 := by decide

/-- For MultipliersAreBijections: each constant. -/
theorem witness_MultipliersAreBijections : constC1 = constC1 ∧ constC2.toNat % 2 = 1 ∧ constC3.toNat % 2 = 1 := by decide

/-- For LittleEndianRoundTrip: the last word of the salt, with bytes around a word. -/
theorem witness_LittleEndianRoundTrip : 12 + 4 ≤ 16 ∧ (11 : Nat) < 12 ∧ 4 + 4 ≤ 8 ∧ (8 : Nat) < 16 := by decide

/-- For StartV2RUsesTheDrawnSalt: a source that goes on, and one with just sixteen bytes. -/
theorem witness_StartV2RUsesTheDrawnSalt : State.reset.rngMore = true ∧ (queued.rngMore = false ∧ 16 ≤ queued.rngQueued.length) := by
  decide +kernel

/-- The write of START_V2R to a source one byte short, with `rest` after it. -/
def stalled (rest : List Input) : State := given (.write 0 4 0x301 :: rest) short

/-- For StartV2RStallsUntilReset: with reset as the next input, with another access, with none. -/
theorem witness_StartV2RStallsUntilReset :
    ((stalled [.rst]).rngMore = false ∧ (stalled [.rst]).rngQueued.length < 16 ∧
      (stalled [.rst]).inputs = .write (stalled [.rst]).base 4 0x301 :: [.rst] ∧ [Input.rst].head? = some .rst) ∧
    ((stalled [.read 0 4]).inputs = .write (stalled [.read 0 4]).base 4 0x301 :: [.read 0 4] ∧
      [Input.read 0 4].head? ≠ some .rst) ∧
    (stalled []).inputs = .write (stalled []).base 4 0x301 :: [] ∧ ([] : List Input).head? ≠ some .rst := by decide +kernel

/-- For AppendFillsTheBlock: both ends of `n`, below and at the end of the block. -/
theorem witness_AppendFillsTheBlock : (v1Abc.phase = .absorb ∧ 1 ≤ 1 ∧ v1Abc.fill.val + 1 < 32) ∧
    (nearFull.phase = .absorb ∧ 4 ≤ 4 ∧ 32 ≤ nearFull.fill.val + 4) ∧ (nearFull.fill.val + 3 < 32) := by decide +kernel

/-- For AppendIgnoresTheHighBytes: DIN differs in the high byte, and APPEND 3 answers. -/
theorem witness_AppendIgnoresTheHighBytes :
    (∀ b, b < 3 → (0xFF636261 : Word).extractLsb' (8 * b) 8 = v1Abc.din.extractLsb' (8 * b) 8) ∧
    (0xFF636261 : Word) ≠ v1Abc.din ∧ ∃ t, exec (.append 3) v1Abc = .next t :=
  ⟨by decide +kernel, by decide +kernel, _, rfl⟩

/-- For DispatchChecksWordThenPhase, and for the SEQUENCE clauses of AppendFillsTheBlock and FinalizeWritesTheDigest: IDLE and DONE,
an illegal word, a word of each side of the phase check. -/
theorem witness_DispatchChecksWordThenPhase : State.reset.phase ≠ .absorb ∧ (did .finalize v1Abc).phase ≠ .absorb ∧
    decode 0x300 = .error .reservedField ∧ decode 0x302 = .ok (.append 4) ∧ decode 0x3 = .ok .finalize ∧
    decode 0x4 = .ok .abort ∧ v1Abc.phase = .absorb := by decide +kernel

/-- For UnencodableAppendIsRefused: 0 and 5. -/
theorem witness_UnencodableAppendIsRefused : ((0 : Nat) = 0 ∨ 5 ≤ 0) ∧ ((5 : Nat) = 0 ∨ 5 ≤ 5) := by decide

/-- For FinalizeWritesTheDigest and DigestRegistersShowTheState: both variants, with and without a partial block. -/
theorem witness_FinalizeWritesTheDigest : (v1Abc.phase = .absorb ∧ v1Abc.var = .v1 ∧ v1Abc.fill ≠ 0) ∧
    (boundary.phase = .absorb ∧ boundary.fill = 0) ∧ (v2Abc.phase = .absorb ∧ v2Abc.var = .v2) := by decide +kernel

/-- FINALIZE answers a state there, as DigestRegistersShowTheState asks. -/
theorem witness_DigestRegistersShowTheState : (∃ t, exec .finalize v1Abc = .next t) ∧ ∃ t, exec .finalize v2Abc = .next t :=
  ⟨⟨_, rfl⟩, _, rfl⟩

/-- For the last clause of AbortReturnsToReset: a recorded error that a command clears. -/
theorem witness_AbortReturnsToReset : (∃ t, exec .abort { v1Abc with err := .locked } = .next t ∧ t.err = .noError) ∧
    ({ v1Abc with err := .locked } : State).err ≠ .noError := ⟨⟨_, rfl, rfl⟩, by decide⟩

/-- For ErrorsBlockNoCommand: a command that completes in each way. -/
theorem witness_ErrorsBlockNoCommand : (∃ t, exec (.append 1) State.reset = .next t) ∧ (∃ t, exec .abort nearFull = .next t) ∧
    ∃ t, exec .startV2R State.reset = .next t := ⟨⟨_, rfl⟩, ⟨_, rfl⟩, _, rfl⟩

/-- For AbsorbV1RunsEightSteps: the last sub-word, a block's offset. -/
theorem witness_AbsorbV1RunsEightSteps : (7 : Nat) < 8 ∧ (32 : Nat) % 32 = 0 := by decide

/-- For the V1 clause of SerializersPlaceTheWords, and its last slot. -/
theorem witness_SerializersPlaceTheWords : v1Abc.var = .v1 ∧ (7 : Nat) < 8 := by decide +kernel

/-- For RegisterReadValues: the offsets where its clauses meet. -/
theorem witness_RegisterReadValues :
    ([0x00, 0x04, 0x08, 0x0C, 0x10, 0x1C, 0x20, 0x3C, 0x40, 0x7C, 0x80, 0x84, 0x88, 0xFC] : List Nat).all
      (fun off => off < 0x100 && off % 4 == 0) = true ∧ 0x10 + 4 * 3 = 0x1C ∧ 0x20 + 4 * 7 = 0x3C ∧ 0x40 + 4 * 15 = 0x7C := by
  decide

/-- For WritesOutsideCommandAndSalt: DIN, and the offsets on both sides of the SALT registers. -/
theorem witness_WritesOutsideCommandAndSalt : ([0x04, 0x08, 0x0C, 0x20, 0xFC] : List Nat).all
    (fun off => off < 0x100 && off % 4 == 0 && off != 0x00 && !(0x10 ≤ off && off ≤ 0x1C)) = true := by decide

/-- For SaltWriteIsLockedInAbsorb and ReadsSeeEarlierWrites: the first and the last word, in ABSORB and outside. -/
theorem witness_SaltWriteIsLockedInAbsorb : (0 : Nat) < 4 ∧ (3 : Nat) < 4 ∧ v1Abc.phase = .absorb ∧ State.reset.phase ≠ .absorb ∧
    (did .finalize v1Abc).phase = .done := by decide +kernel

/-- For AccessErrorsFollowTheTable: each code raised, and accesses that raise none, ABORT among them. -/
theorem witness_AccessErrorsFollowTheTable : raisedBy .idle 0x00 0x5 = some .illegal ∧ raisedBy .absorb 0x00 0x5 = some .illegal ∧
    raisedBy .idle 0x00 0x2 = some .sequence ∧ raisedBy .done 0x00 0x3 = some .sequence ∧
    raisedBy .absorb 0x10 0 = some .locked ∧ raisedBy .absorb 0x1C 0 = some .locked ∧ raisedBy .done 0x1C 0 = none ∧
    raisedBy .absorb 0x20 0 = none ∧ raisedBy .absorb 0x0C 0 = none ∧ raisedBy .absorb 0x00 0x3 = none ∧
    raisedBy .idle 0x00 0x4 = none ∧ ∃ t, State.reset.regWrite (regAt 0x00) 0x4 = .next t :=
  ⟨by decide, by decide, by decide, by decide, by decide, by decide, by decide, by decide, by decide, by decide, by decide, _, rfl⟩

/-- For SaltAndVariantFixedDuringAbsorb: a SALT write and an APPEND in ABSORB. -/
theorem witness_SaltAndVariantFixedDuringAbsorb : (∃ t, v1Abc.regWrite (regAt 0x10) 0xAA = .next t) ∧
    (∃ t, v1Abc.regWrite (regAt 0x00) 0x202 = .next t) ∧
    (∀ i : Instr, (0x00 : Nat) = 0x00 → decode 0x202 = .ok i → i ≠ .startV1 ∧ i ≠ .startV2 ∧ i ≠ .startV2R ∧ i ≠ .abort) ∧
    v1Abc.phase = .absorb := by
  refine ⟨⟨_, rfl⟩, ⟨_, rfl⟩, fun i _ hi => ?_, rfl⟩
  have h : decode 0x202 = .ok (.append 3) := by decide
  rw [h] at hi
  injection hi with hi
  subst hi
  decide

/-- For PhaseFollowsTheTable: a legal and an illegal word. -/
theorem witness_PhaseFollowsTheTable : (∃ t, v1Abc.regWrite .cmd 0x3 = .next t) ∧ decode 0x3 = .ok .finalize ∧
    (∃ t, v1Abc.regWrite .cmd 0x5 = .next t) ∧ decode 0x5 = .error .reservedOpcode :=
  ⟨⟨_, rfl⟩, by decide, ⟨_, rfl⟩, by decide⟩

/-- For StepRunsTheDecodedCommand: a read, a CMD write that completes, one that stalls, an illegal one, a write elsewhere, no
input; the window at 0x1000. -/
theorem witness_StepRunsTheDecodedCommand :
    (given [.read 0x10FC 4] { State.reset with base := 0x1000 }).inputs = [.read (0x1000 + 0xFC) 4] ∧
    (given [.write 0x1000 4 0x202] { v1Abc with base := 0x1000 }).inputs = [.write (0x1000 + 0x00) 4 0x202] ∧
    decode 0x202 = .ok (.append 3) ∧ (∃ t, exec (.append 3) { v1Abc with inputs := [] } = .next t) ∧
    exec .startV2R { short with inputs := [] } = .fault .randomStall ∧ decode (BitVec.ofNat 32 0x301) = .ok .startV2R ∧
    (given [.write 0x1000 4 0x5] { v1Abc with base := 0x1000 }).inputs = [.write (0x1000 + 0x00) 4 0x5] ∧
    decode 0x5 = .error .reservedOpcode ∧
    (given [.write 0x1008 4 0x5] { v1Abc with base := 0x1000 }).inputs = [.write (0x1000 + 0x08) 4 0x5] ∧
    State.reset.inputs = [] :=
  ⟨rfl, rfl, by decide, ⟨_, rfl⟩, rfl, by decide, rfl, by decide, rfl, rfl⟩

/-- For OutsideTheContractIsRefused: each way out, at its boundary, the window at 0x1000. -/
theorem witness_OutsideTheContractIsRefused : (2 : Nat) ≠ 4 ∧ (0xFFC : Nat) < 0x1000 ∧ 0x1000 + 0x100 ≤ 0x1100 ∧
    (0x1002 - 0x1000) % 4 ≠ 0 ∧ (given [.read 0x1100 4] State.reset).inputs = [.read 0x1100 4] ∧
    (given [.write 0x1002 4 0] State.reset).inputs = [.write 0x1002 4 0] := by decide +kernel

/-- For StepServesTheOldestInput and OnlyStartV2RDraws: a step on a read. -/
theorem witness_StepServesTheOldestInput : (∃ t, step (given [.read 0 4] State.reset) = .next t) ∧
    ∀ inp, (given [.read 0 4] State.reset).inputs.head? = some inp → ¬ inp.isCommand State.reset.base .startV2R := by
  refine ⟨⟨_, rfl⟩, fun inp h => ?_⟩
  injection h with h
  subst h
  rintro ⟨v, h, -⟩
  contradiction

/-- For ErrorStaysUntilAbortOrReset: a recorded error and a step that keeps it, and one that clears it. -/
theorem witness_ErrorStaysUntilAbortOrReset :
    (∃ t, step (given [.write 0 4 0x2] { State.reset with err := .illegal }) = .next t) ∧
    (∃ t, step (given [.rst] { State.reset with err := .illegal }) = .next t) ∧
    ({ State.reset with err := .illegal } : State).err ≠ .noError := ⟨⟨_, rfl⟩, ⟨_, rfl⟩, by decide⟩

/-- For ResetValues: reset as the next input. -/
theorem witness_ResetValues : (given [.rst] nearFull).inputs = .rst :: [] := rfl

/-- For StepKeepsTheInvariant and StepKeepsIdleQuiet: a state in ABSORB that meets both, and its step. -/
theorem witness_StepKeepsTheInvariant : (given [.write 0 4 0x202] v1Abc).Inv ∧ (given [.write 0 4 0x202] v1Abc).QuietInv ∧
    ∃ t, step (given [.write 0 4 0x202] v1Abc) = .next t :=
  ⟨⟨by decide +kernel, by decide +kernel, by decide +kernel⟩, ⟨by decide +kernel, by decide +kernel⟩, _, rfl⟩

/-- For PaddedBufferShape: an input of 17 bytes has positions of every kind. -/
theorem witness_PaddedBufferShape : (15 : Nat) < 16 ∧ (16 : Nat) < 17 ∧ 16 + 17 ≤ 33 ∧ 33 < paddedLength 17 ∧ 32 ∣ 64 ∧
    17 + 16 ≤ 64 := by decide

/-- For TrailingZerosKeepTheDigest: the empty input and one zero byte (95_test_vectors.md V1-1, V1-9). -/
theorem witness_TrailingZerosKeepTheDigest : paddedLength (0 + 1) = paddedLength 0 ∧ paddedLength (0 + 16) = paddedLength 0 ∧
    paddedLength (0 + 17) ≠ paddedLength 0 := by decide

/-- For StartBeginsAnEmptyInput: sixteen draws are available. -/
theorem witness_StartBeginsAnEmptyInput : State.reset.drawsReady = true ∧ queued.drawsReady = true := by decide +kernel

/-- For AppendExtendsTheInput and FinalizeLeavesTheDigestOfTheInput: after START_V1, and after START_V2. -/
theorem witness_AppendExtendsTheInput : v1Abc.Absorbing [] ∧ v2Abc.Absorbing [] ∧
    (did (.append 3) v1Abc).Absorbing [0x61, 0x62, 0x63] :=
  ⟨⟨rfl, by decide +kernel, by decide +kernel, by decide +kernel, by decide +kernel, by decide +kernel⟩,
   ⟨rfl, by decide +kernel, by decide +kernel, by decide +kernel, by decide +kernel, by decide +kernel⟩,
   ⟨by decide +kernel, by decide +kernel, by decide +kernel, by decide +kernel, by decide +kernel, by decide +kernel⟩⟩

/-- P1's accesses between START and FINALIZE, with an illegal word, a locked SALT write and a read among them. -/
def inside : List Input := [.write 0x08 4 0x00636261, .write 0 4 0x5, .write 0x10 4 0xAA, .read 0x04 4, .write 0 4 0x202]

/-- For AnyAccessSequenceLeavesTheDigest: each START, the accesses inside, and their bytes. -/
theorem witness_AnyAccessSequenceLeavesTheDigest : (Input.write 0 4 0x1).isCommand 0 .startV1 ∧
    (Input.write 0 4 0x101).isCommand 0 .startV2 ∧ (Input.write 0 4 0x301).isCommand 0 .startV2R ∧
    (Input.write 0 4 0x3).isCommand 0 .finalize ∧ (∀ inp ∈ inside, inp.staysInside 0 = true) ∧
    bytesAppended 0 0 inside = [0x61, 0x62, 0x63] ∧ State.reset.drawsReady = true :=
  ⟨⟨0x1, rfl, by decide⟩, ⟨0x101, rfl, by decide⟩, ⟨0x301, rfl, by decide⟩, ⟨0x3, rfl, by decide⟩, by decide, by decide, rfl⟩

/-- The same bytes cut as 1 and 2. -/
def insideCut : List Input :=
  [.write 0x08 4 0x61, .write 0 4 0x2, .write 0x08 4 0x6362, .write 0 4 0x0, .write 0 4 0x102]

/-- For DigestIgnoresTheSplit: two cuts of "abc", each of which runs to its end. -/
theorem witness_DigestIgnoresTheSplit : (∀ inp ∈ inside, inp.staysInside 0 = true) ∧
    (∀ inp ∈ insideCut, inp.staysInside 0 = true) ∧ bytesAppended 0 0 inside = bytesAppended 0 0 insideCut ∧
    (∃ t, Sys2Proof.core.run 7 (given (.write 0 4 0x1 :: (inside ++ [.write 0 4 0x3])) State.reset) = .next t) ∧
    ∃ t, Sys2Proof.core.run 7 (given (.write 0 4 0x1 :: (insideCut ++ [.write 0 4 0x3])) State.reset) = .next t :=
  ⟨by decide, by decide, by decide, ⟨_, rfl⟩, _, rfl⟩

/-- For HashReturnsTheDigest: the programs of 95_test_vectors.md P1 and P2 as inputs. -/
theorem witness_HashReturnsTheDigest : (given (hashV1 0 [0x61, 0x62, 0x63]) State.reset).inputs =
    hashV1 State.reset.base [0x61, 0x62, 0x63] ++ [] ∧ State.reset.phase ≠ .absorb ∧
    (given (hashV2 0 (Vector.replicate 16 0) [0x61]) State.reset).inputs =
    hashV2 State.reset.base (Vector.replicate 16 0) [0x61] ++ [] ∧ (hashV1 0 [0x61, 0x62, 0x63]).length = 12 := by decide +kernel

end Sys2Proof.Tests
end

/-! STATUS in exact arithmetic, what each of its bit fields reads (10_state.md R34), and the proof of O29. -/

namespace Sys2Proof.Machine

/-- Every field of STATUS fits in the bits R34 gives it. -/
theorem State.statusFields_lt (s : State) :
    s.phase.code.toNat < 2 ^ 2 ∧ s.var.code.toNat < 2 ^ 1 ∧ s.err.code.toNat < 2 ^ 3 ∧ s.fill.val < 2 ^ 5 := by
  refine ⟨?_, ?_, ?_, s.fill.isLt⟩
  · cases s.phase <;> decide
  · cases s.var <;> decide
  · cases s.err <;> decide

/-- `STATUS = PHASE + 4*VAR + 16*ERR + 256*FILL` with no wrap modulo 2^32 (10_state.md R34). -/
theorem State.statusWord_toNat (s : State) :
    s.statusWord.toNat = s.phase.code.toNat + 4 * s.var.code.toNat + 16 * s.err.code.toNat + 256 * s.fill.val := by
  obtain ⟨hphase, hvar, herr, hfill⟩ := s.statusFields_lt
  simp only [State.statusWord, BitVec.toNat_add, BitVec.toNat_shiftLeft, BitVec.toNat_ofNat, Nat.shiftLeft_eq]
  omega

/-- A bit field of STATUS, by its digits in the sum of R34. -/
theorem State.statusWord_extractLsb'_eq {s : State} {start len : Nat} {x : BitVec len}
    (h : (s.phase.code.toNat + 4 * s.var.code.toNat + 16 * s.err.code.toNat + 256 * s.fill.val) / 2 ^ start % 2 ^ len =
      x.toNat) : s.statusWord.extractLsb' start len = x := by
  apply BitVec.eq_of_toNat_eq
  rw [BitVec.extractLsb'_toNat, Nat.shiftRight_eq_div_pow, State.statusWord_toNat, h]

theorem State.statusWord_phase (s : State) : s.statusWord.extractLsb' 0 2 = s.phase.code.setWidth 2 := by
  apply State.statusWord_extractLsb'_eq
  rw [BitVec.toNat_setWidth]
  omega

theorem State.statusWord_var (s : State) : s.statusWord.extractLsb' 2 1 = s.var.code.setWidth 1 := by
  obtain ⟨hphase, -, -, -⟩ := s.statusFields_lt
  apply State.statusWord_extractLsb'_eq
  rw [BitVec.toNat_setWidth]
  omega

theorem State.statusWord_err (s : State) : s.statusWord.extractLsb' 4 3 = s.err.code.setWidth 3 := by
  obtain ⟨hphase, hvar, -, -⟩ := s.statusFields_lt
  apply State.statusWord_extractLsb'_eq
  rw [BitVec.toNat_setWidth]
  omega

theorem State.statusWord_fill (s : State) : s.statusWord.extractLsb' 8 5 = BitVec.ofNat 5 s.fill.val := by
  obtain ⟨hphase, hvar, herr, -⟩ := s.statusFields_lt
  apply State.statusWord_extractLsb'_eq
  rw [BitVec.toNat_ofNat]
  omega

/-- The gaps between the fields of STATUS and the bits above FILL read 0 (10_state.md R34). -/
theorem State.statusWord_reserved (s : State) :
    s.statusWord.extractLsb' 3 1 = 0#1 ∧ s.statusWord.extractLsb' 7 1 = 0#1 ∧ s.statusWord.extractLsb' 13 19 = 0#19 := by
  obtain ⟨hphase, hvar, herr, hfill⟩ := s.statusFields_lt
  refine ⟨?_, ?_, ?_⟩ <;>
  · apply State.statusWord_extractLsb'_eq
    rw [BitVec.toNat_zero]
    omega

/-- The offset of STATUS (20_memory.md R55). -/
theorem regAt_status : regAt 0x04 = .status := rfl

/-- A write to STATUS is ignored (20_memory.md R60). -/
theorem State.regWrite_status (s : State) (v : Word) : s.regWrite .status v = .next s := rfl

/-- Settles O29, field by field; the codes by cases on PHASE, VAR and ERR. -/
theorem statusFieldLayout : Obligations.StatusFieldLayout := by
  intro s v
  obtain ⟨hbit3, hbit7, hhigh⟩ := s.statusWord_reserved
  refine ⟨?_, ?_, hbit3, ?_, hbit7, s.statusWord_fill, hhigh, ?_⟩
  · rw [s.statusWord_phase]
    cases s.phase <;> rfl
  · rw [s.statusWord_var]
    cases s.var <;> rfl
  · rw [s.statusWord_err]
    cases s.err <;> rfl
  · rw [regAt_status, s.regWrite_status]

end Sys2Proof.Machine

/-! Words inside byte arrays, read and written as inverse operations (20_memory.md R52), and the proof of O9. -/

namespace Sys2Proof.Machine

/-- `le32(le32_bytes(w), 0) = w` (20_memory.md R52): a word is the sum of its base-256 digits. -/
theorem le32_wordByte (w : Word) : le32 (wordByte w 0) (wordByte w 1) (wordByte w 2) (wordByte w 3) = w := by
  apply BitVec.eq_of_toNat_eq
  have hw := w.isLt
  simp only [le32_toNat, wordByte_toNat]
  omega

theorem setWordAt_getElem_outside {n : Nat} (B : Vector Byte n) (p : Nat) (w : Word) (h : p + 4 ≤ n) (q : Nat)
    (hq : q < n) (hout : q < p ∨ p + 4 ≤ q) : (setWordAt B p w h)[q] = B[q] := by
  rw [setWordAt_getElem, if_neg (by omega)]

theorem wordAt_setWordAt {n : Nat} (B : Vector Byte n) (p : Nat) (w : Word) (h : p + 4 ≤ n) :
    wordAt (setWordAt B p w h) p h = w := by
  calc wordAt (setWordAt B p w h) p h
      = le32 (wordByte w 0) (wordByte w 1) (wordByte w 2) (wordByte w 3) := by simp [wordAt, setWordAt_getElem]
    _ = w := le32_wordByte w

theorem setWordAt_wordAt {n : Nat} (B : Vector Byte n) (p : Nat) (h : p + 4 ≤ n) : setWordAt B p (wordAt B p h) h = B := by
  ext q hq : 1
  by_cases hin : p ≤ q ∧ q < p + 4
  · obtain ⟨b, rfl⟩ := Nat.exists_eq_add_of_le hin.1
    rw [setWordAt_getElem, if_pos hin, Nat.add_sub_cancel_left, wordByte_wordAt B p h b (by omega)]
  · exact setWordAt_getElem_outside B p _ h q hq (by omega)

/-- Settles O9: the bytes of a word are its base-256 digits, and writing a word replaces exactly its four bytes. -/
theorem littleEndianRoundTrip : Obligations.LittleEndianRoundTrip := by
  refine ⟨fun b0 b1 b2 b3 => ⟨le32_toNat b0 b1 b2 b3, wordByte_le32 b0 b1 b2 b3⟩, le32_wordByte, ?_, by decide⟩
  intro n B p h w
  exact ⟨wordAt_setWordAt B p w h, setWordAt_wordAt B p h, setWordAt_getElem_outside B p w h⟩

end Sys2Proof.Machine

/-! Register writes away from CMD, one equation per kind of register (20_memory.md R60, R61, R62), and the proofs of O30 and O31. -/

namespace Sys2Proof.Machine

theorem regAt_eq_cmd {off : Nat} (h : regAt off = .cmd) : off = 0x00 := by
  unfold regAt at h
  split_ifs at h
  assumption

theorem regAt_din : regAt 0x08 = .din := rfl

theorem regAt_eq_din {off : Nat} (h : regAt off = .din) : off = 0x08 := by
  unfold regAt at h
  split_ifs at h
  assumption

theorem regAt_eq_salt {off : Nat} {w : Fin 4} (h : regAt off = .salt w) : 0x10 ≤ off ∧ off ≤ 0x1C := by
  unfold regAt at h
  split_ifs at h
  assumption

/-- DIN takes the value, with no other effect (20_memory.md R62). -/
theorem State.regWrite_din (s : State) (v : Word) : s.regWrite .din v = .next { s with din := v } := rfl

/-- A read-only or reserved register ignores a write (20_memory.md R60). -/
theorem State.regWrite_ignored {r : Reg} (s : State) (v : Word) (hcmd : r ≠ .cmd) (hdin : r ≠ .din)
    (hsalt : ∀ w, r ≠ .salt w) : s.regWrite r v = .next s := by
  cases r with
  | cmd => exact absurd rfl hcmd
  | din => exact absurd rfl hdin
  | salt w => exact absurd rfl (hsalt w)
  | status | digest | state | lenLo | lenHi | reserved => rfl

/-- A salt write in ABSORB is refused with LOCKED (20_memory.md R61). -/
theorem State.regWrite_salt_of_absorb {s : State} (w : Fin 4) (v : Word) (h : s.phase = .absorb) :
    s.regWrite (.salt w) v = .next (s.raiseError .locked) := by
  rw [State.regWrite, State.saltWrite, if_pos h]

/-- A salt write in IDLE or DONE writes the word (20_memory.md R61). -/
theorem State.regWrite_salt_of_not_absorb {s : State} (w : Fin 4) (v : Word) (h : s.phase ≠ .absorb) :
    s.regWrite (.salt w) v = .next (s.writeSaltWord w v) := by
  rw [State.regWrite, State.saltWrite, if_neg h]

/-- Settles O30: away from CMD and the SALT registers an offset names DIN or a register that ignores writes. -/
theorem writesOutsideCommandAndSalt : Obligations.WritesOutsideCommandAndSalt := by
  intro s off v _ _ hcmd hsalt
  split_ifs with hdin
  · rw [hdin, regAt_din, s.regWrite_din]
  · exact s.regWrite_ignored v (mt regAt_eq_cmd hcmd) (mt regAt_eq_din hdin) fun _ => mt regAt_eq_salt hsalt

/-- Settles O31, by cases on the phase; the new salt's bytes are those of the word written into the array. -/
theorem saltWriteIsLockedInAbsorb : Obligations.SaltWriteIsLockedInAbsorb := by
  intro s w v hw
  rw [regAt_salt w hw]
  refine ⟨fun habsorb => ?_, fun hopen => ?_⟩
  · rw [State.regWrite_salt_of_absorb _ v habsorb, State.raiseError_eq]
  · exact ⟨_, State.regWrite_salt_of_not_absorb _ v hopen, fun p h => setWordAt_getElem s.salt (4 * w) v (by omega) p h⟩

end Sys2Proof.Machine

/-! The opcode table against the decoder and the encoder (30_encoding.md R80 to R85), and the proofs of O3, O4 and O2. -/

namespace Sys2Proof

/-- A word that decodes is its command's one word (30_encoding.md R83, R84). -/
theorem encode_of_decode {w : Word} {i : Instr} (h : decode w = .ok i) : encode i = w := by
  rw [decode_eq_of_toNat] at h
  split_ifs at h
  all_goals
    injection h with h
    subst h
    apply BitVec.eq_of_toNat_eq
    simp only [encode, BitVec.natCast_eq_ofNat, BitVec.ofNat_eq_ofNat, BitVec.toNat_add, BitVec.toNat_shiftLeft,
      BitVec.toNat_ofNat, Nat.shiftLeft_eq, Nat.add_sub_cancel]
    omega

theorem decode_append {w : Word} (hrsv : rsvField w = 0) (hop : opField w = 0x02) :
    decode w = .ok (.append ((fField w).toNat + 1)) := by
  simp [decode, hrsv, hop]

/-- The fields of a command word fix whether it is illegal (30_encoding.md R85). -/
theorem decode_error_iff (w : Word) :
    (∃ e, decode w = .error e) ↔
      w.toNat / 1024 ≠ 0 ∨ 5 ≤ w.toNat % 256 ∨
      ((w.toNat % 256 = 0 ∨ w.toNat % 256 = 3 ∨ w.toNat % 256 = 4) ∧ w.toNat / 256 % 4 ≠ 0) ∨
      (w.toNat % 256 = 1 ∧ w.toNat / 256 % 4 = 2) := by
  rw [decode_eq_of_toNat]
  split_ifs
  all_goals simp only [Except.error.injEq, exists_eq', true_iff, exists_false, false_iff]
  all_goals omega

/-- A row that fixes every bit selects its match alone. -/
theorem OpcodeRow.selects_of_fullMask {m : String} {b w : Word} :
    OpcodeRow.selects ⟨m, b, 0xFFFFFFFF⟩ w = true ↔ w = b := by
  have hand : w &&& 0xFFFFFFFF = w := BitVec.and_allOnes
  rw [OpcodeRow.selects, hand, beq_iff_eq]

/-- APPEND's row leaves out exactly the field F, so it fixes OP and RSV (30_encoding.md R83). -/
theorem OpcodeRow.fields_of_appendRow_selects {m : String} {w : Word}
    (h : OpcodeRow.selects ⟨m, 0x00000002, 0xFFFFFCFF⟩ w = true) : rsvField w = 0 ∧ opField w = 0x02 := by
  have hand : w &&& 0xFFFFFCFF = 0x00000002 := eq_of_beq h
  constructor
  · calc rsvField w = rsvField w &&& rsvField 0xFFFFFCFF := BitVec.and_allOnes.symm
      _ = rsvField (w &&& 0xFFFFFCFF) := BitVec.extractLsb'_and.symm
      _ = 0 := by rw [hand]; decide
  · calc opField w = opField w &&& opField 0xFFFFFCFF := BitVec.and_allOnes.symm
      _ = opField (w &&& 0xFFFFFCFF) := BitVec.extractLsb'_and.symm
      _ = 0x02 := by rw [hand]; decide

theorem decode_of_fullRow_selects {b w : Word} {i : Instr} (hb : decode b = .ok i)
    (h : OpcodeRow.selects ⟨i.mnemonic, b, 0xFFFFFFFF⟩ w = true) : decode w = .ok i := by
  rw [OpcodeRow.selects_of_fullMask.mp h, hb]

/-- A word a row selects decodes to a command of that row (30_encoding.md R83). -/
theorem decode_of_selects {r : OpcodeRow} {w : Word} (hr : r ∈ opcodeTable) (h : r.selects w = true) :
    ∃ i, decode w = .ok i ∧ i.mnemonic = r.mnemonic := by
  simp only [opcodeTable, List.mem_cons, List.not_mem_nil, or_false] at hr
  rcases hr with rfl | rfl | rfl | rfl | rfl | rfl | rfl
  · exact ⟨.nop, decode_of_fullRow_selects rfl h, rfl⟩
  · exact ⟨.startV1, decode_of_fullRow_selects rfl h, rfl⟩
  · exact ⟨.startV2, decode_of_fullRow_selects rfl h, rfl⟩
  · exact ⟨.startV2R, decode_of_fullRow_selects rfl h, rfl⟩
  · obtain ⟨hrsv, hop⟩ := OpcodeRow.fields_of_appendRow_selects h
    exact ⟨_, decode_append hrsv hop, rfl⟩
  · exact ⟨.finalize, decode_of_fullRow_selects rfl h, rfl⟩
  · exact ⟨.abort, decode_of_fullRow_selects rfl h, rfl⟩

/-- What the per-command laws say, for every command. -/
theorem encodingLaw (i : Instr) : Laws.F.Statement i := by
  cases i with
  | nop => exact Laws.F.nop
  | startV1 => exact Laws.F.startV1
  | startV2 => exact Laws.F.startV2
  | startV2R => exact Laws.F.startV2R
  | append n => exact Laws.F.append n
  | finalize => exact Laws.F.finalize
  | abort => exact Laws.F.abort

/-- A word that decodes is selected by a row (30_encoding.md R83). -/
theorem exists_selects_of_decode {w : Word} {i : Instr} (h : decode w = .ok i) :
    ∃ r ∈ opcodeTable, r.selects w = true := by
  obtain ⟨-, -, hrows⟩ := encodingLaw i (decode_wellFormed h)
  rw [encode_of_decode h] at hrows
  have hmem : i.mnemonic ∈ (opcodeTable.filter fun r => r.selects w).map OpcodeRow.mnemonic := by simp [hrows]
  obtain ⟨r, hr, -⟩ := List.mem_map.mp hmem
  exact ⟨r, List.mem_filter.mp hr⟩

theorem exists_selects_or_decode_error (w : Word) :
    (∃ r ∈ opcodeTable, r.selects w = true) ∨ ∃ e, decode w = .error e := by
  cases h : decode w with
  | ok i => exact .inl (exists_selects_of_decode h)
  | error e => exact .inr ⟨e, rfl⟩

theorem opcodeTable_mnemonic_injective : ∀ r ∈ opcodeTable, ∀ q ∈ opcodeTable, r.mnemonic = q.mnemonic → r = q := by
  decide

/-- A write to CMD is the command's execution (45_commands.md R200). -/
theorem Machine.State.regWrite_cmd (s : Machine.State) (v : Word) : s.regWrite .cmd v = s.executeCommand v := rfl

/-- Settles O3: a selecting row gives the decoded mnemonic, and no two rows share one. -/
theorem tableRowSelectsTheCommand : Obligations.TableRowSelectsTheCommand := by
  intro w
  refine ⟨fun r hr => decode_of_selects hr, fun hnone => ?_, fun r hr q hq hrw hqw => ?_⟩
  · refine (exists_selects_or_decode_error w).resolve_left ?_
    rintro ⟨r, hr, hrw⟩
    exact Bool.false_ne_true ((hnone r hr).symm.trans hrw)
  · obtain ⟨i, hi, hir⟩ := decode_of_selects hr hrw
    obtain ⟨j, hj, hjq⟩ := decode_of_selects hq hqw
    obtain rfl : i = j := Except.ok.inj (hi.symm.trans hj)
    exact opcodeTable_mnemonic_injective r hr q hq (hir.symm.trans hjq)

/-- Settles O4: the illegal words by their fields, their write to CMD as one recorded error, and the table's totality. -/
theorem illegalWordsRecordIllegal : Obligations.IllegalWordsRecordIllegal := by
  intro w s
  refine ⟨decode_error_iff w, ?_, exists_selects_or_decode_error w⟩
  rintro ⟨e, he⟩
  rw [s.regWrite_cmd, Machine.State.executeCommand_of_error he, Machine.State.raiseError_eq]

/-- Settles O2 by running the decoder on the listed words. -/
theorem workedWordsDecode : Obligations.WorkedWordsDecode := by
  unfold Obligations.WorkedWordsDecode
  decide

end Sys2Proof

/-! The shape of the padded buffer (41_padder.md R120): its length, its three ranges of bytes, and the proof of O45. -/

namespace Sys2Proof.Machine

theorem dvd_paddedLength (l : Nat) : 32 ∣ paddedLength l := Nat.dvd_mul_left 32 _

theorem add_le_paddedLength (l : Nat) : l + 16 ≤ paddedLength l := by
  unfold paddedLength
  omega

theorem paddedLength_le {l q : Nat} (hq : 32 ∣ q) (hl : l + 16 ≤ q) : paddedLength l ≤ q := by
  unfold paddedLength
  omega

/-- A positive multiple of 32 is at least 32, so the empty input has a block too (41_padder.md R128). -/
theorem le_paddedLength (l : Nat) : 32 ≤ paddedLength l :=
  Nat.le_of_dvd (by have := add_le_paddedLength l; omega) (dvd_paddedLength l)

theorem length_pad (salt : Vector Byte 16) (x : List Byte) : (pad salt x).length = paddedLength x.length := by
  have hfits := add_le_paddedLength x.length
  simp only [pad, List.length_append, Vector.length_toList, List.length_replicate]
  omega

theorem pad_getElem?_salt (salt : Vector Byte 16) (x : List Byte) (p : Nat) (h : p < 16) :
    (pad salt x)[p]? = some salt[p] := by
  rw [pad, List.append_assoc, List.getElem?_append_left (by simpa using h), List.getElem?_eq_getElem (by simpa using h),
    Vector.getElem_toList]

theorem pad_getElem?_input (salt : Vector Byte 16) (x : List Byte) (p : Nat) (h : p < x.length) :
    (pad salt x)[16 + p]? = x[p]? := by
  rw [pad, List.append_assoc, List.getElem?_append_right (by simp), Vector.length_toList, Nat.add_sub_cancel_left,
    List.getElem?_append_left h]

theorem pad_getElem?_zero (salt : Vector Byte 16) (x : List Byte) (p : Nat) (hlo : 16 + x.length ≤ p)
    (hhi : p < paddedLength x.length) : (pad salt x)[p]? = some 0 := by
  have hlen : (salt.toList ++ x).length = 16 + x.length := by simp
  rw [pad, List.getElem?_append_right (hlen ▸ hlo), hlen, List.getElem?_replicate_of_lt (by omega)]

/-- Settles O45: the length from the ceiling of R120, each byte from the part of the buffer it stands in. -/
theorem paddedBufferShape : Obligations.PaddedBufferShape := by
  intro salt x
  exact ⟨length_pad salt x, dvd_paddedLength _, le_paddedLength _, add_le_paddedLength _, fun _ => paddedLength_le,
    pad_getElem?_salt salt x, pad_getElem?_input salt x, pad_getElem?_zero salt x⟩

end Sys2Proof.Machine

/-! The rotator bit by bit (42_mixing_primitives.md R140 to R142), and the proofs of O5 and O6. -/

namespace Sys2Proof.Machine

theorem getLsbD_rotl32 (x : Word) (n : Nat) {b : Nat} (hb : b < 32) :
    (rotl32 x n).getLsbD b = x.getLsbD ((b + 32 - n % 32) % 32) := by
  rw [rotl32_eq_rotateLeft, BitVec.getLsbD_rotateLeft]
  by_cases h : b < n % 32
  · simp [h, show (b + 32 - n % 32) % 32 = 32 - n % 32 + b by omega]
  · simp [h, hb, show (b + 32 - n % 32) % 32 = b - n % 32 by omega]

theorem getLsbD_rotr32 (x : Word) (n : Nat) {b : Nat} (hb : b < 32) :
    (rotr32 x n).getLsbD b = x.getLsbD ((b + n) % 32) := by
  rw [rotr32_eq_rotateRight, BitVec.getLsbD_rotateRight]
  by_cases h : b < 32 - n % 32
  · simp [h, show (b + n) % 32 = n % 32 + b by omega]
  · simp [h, hb, show (b + n) % 32 = b - (32 - n % 32) by omega]

theorem rotl32_of_mod_eq_zero (x : Word) {n : Nat} (h : n % 32 = 0) : rotl32 x n = x := by
  rw [rotl32, if_pos h]

/-- Settles O5 by the bit law of the rotator. -/
theorem rotateLeftMovesEachBit : Obligations.RotateLeftMovesEachBit :=
  fun x n _ hb => ⟨getLsbD_rotl32 x n hb, rotl32_of_mod_eq_zero x⟩

theorem rotr32_eq_rotl32 (x : Word) (n : Nat) : rotr32 x n = rotl32 x ((32 - n % 32) % 32) := by
  refine BitVec.eq_of_getLsbD_eq fun b hb => ?_
  rw [getLsbD_rotr32 x n hb, getLsbD_rotl32 _ _ hb]
  congr 1
  omega

theorem rotl32_rotl32 (x : Word) (a b : Nat) : rotl32 (rotl32 x a) b = rotl32 x (a + b) := by
  refine BitVec.eq_of_getLsbD_eq fun k hk => ?_
  rw [getLsbD_rotl32 _ _ hk, getLsbD_rotl32 _ _ (Nat.mod_lt _ (by decide)), getLsbD_rotl32 _ _ hk]
  congr 1
  omega

theorem rotl32_xor (x y : Word) (n : Nat) : rotl32 (x ^^^ y) n = rotl32 x n ^^^ rotl32 y n := by
  refine BitVec.eq_of_getLsbD_eq fun b hb => ?_
  simp only [BitVec.getLsbD_xor, getLsbD_rotl32 _ _ hb]

/-- Settles O6: each identity compares the bits both sides take from the word. -/
theorem rotateIdentities : Obligations.RotateIdentities :=
  ⟨rotr32_eq_rotl32, rotl32_rotl32, fun x => rotl32_of_mod_eq_zero x (Nat.mod_self 32), rotl32_xor⟩

end Sys2Proof.Machine

/-! Multiplication by an odd word (42_mixing_primitives.md R143), and the proof of O7. -/

namespace Sys2Proof.Machine

/-- An odd factor is coprime to `2^32`, so it cancels from equal products. -/
theorem mul_right_injective_of_odd {c : Word} (hc : c.toNat % 2 = 1) : Function.Injective (fun x : Word => x * c) := by
  intro x y h
  have hcoprime : Nat.gcd (2 ^ 32) c.toNat = 1 := (Nat.coprime_two_left.mpr (Nat.odd_iff.mpr hc)).pow_left 32
  have hmod : x.toNat * c.toNat ≡ y.toNat * c.toNat [MOD 2 ^ 32] := by
    simpa only [Nat.ModEq, BitVec.toNat_mul] using congrArg BitVec.toNat h
  exact BitVec.eq_of_toNat_eq ((hmod.cancel_right_of_coprime hcoprime).eq_of_lt_of_lt x.isLt y.isLt)

theorem mul_right_bijective_of_odd {c : Word} (hc : c.toNat % 2 = 1) : Function.Bijective (fun x : Word => x * c) :=
  have : Finite Word := .of_injective BitVec.toFin BitVec.toFin_injective
  Finite.injective_iff_bijective.mp (mul_right_injective_of_odd hc)

theorem mul_eq_zero_iff_of_odd {c : Word} (hc : c.toNat % 2 = 1) (x : Word) : x * c = 0 ↔ x = 0 :=
  (mul_right_injective_of_odd hc).eq_iff' (zero_mul c)

theorem multiplier_odd {c : Word} (h : c = constC1 ∨ c = constC2 ∨ c = constC3) : c.toNat % 2 = 1 := by
  rcases h with rfl | rfl | rfl <;> decide

/-- Settles O7: the word operations are the library's, and the three constants are odd. -/
theorem multipliersAreBijections : Obligations.MultipliersAreBijections :=
  ⟨fun a b => ⟨BitVec.toNat_mul a b, BitVec.toNat_add a b, fun _ => BitVec.getLsbD_xor⟩, fun _ h =>
    have hodd := multiplier_odd h
    ⟨hodd, mul_right_bijective_of_odd hodd, mul_eq_zero_iff_of_odd hodd⟩⟩

end Sys2Proof.Machine

/-! The two mixers (42_mixing_primitives.md R144 to R146) and the finalizer rounds (44_finalize.md R180 to R184), and the proofs of
O8 and O26. -/

namespace Sys2Proof.Machine

theorem rotl32_not (x : Word) (n : Nat) : rotl32 (~~~x) n = ~~~(rotl32 x n) := by
  refine BitVec.eq_of_getLsbD_eq fun b hb => ?_
  simp only [BitVec.getLsbD_not, getLsbD_rotl32 _ _ hb, hb, Nat.mod_lt _ (show 32 > 0 by decide), decide_true]

/-- The complement cancels in the XOR of a word with its rotation (42_mixing_primitives.md R146). -/
theorem not_xor_rotl32_not (x : Word) (r : Nat) : ~~~x ^^^ rotl32 (~~~x) r = x ^^^ rotl32 x r := by
  rw [rotl32_not, ← BitVec.not_xor_left, ← BitVec.not_xor_right, BitVec.not_not]

theorem emix_not (x : Word) : emix (~~~x) = emix x := by
  simp only [emix, not_xor_rotl32_not]

theorem emix_not_injective : ¬ Function.Injective emix :=
  fun h => absurd (h (emix_not 0)) (by decide)

/-- Settles O8: the six steps as defined, the complement from the first of them, and the listed values by evaluation. -/
theorem emixMapsComplementsTogether : Obligations.EmixMapsComplementsTogether := by
  refine ⟨not_xor_rotl32_not, ?_, by decide, emix_not, emix_not_injective, by decide⟩
  rintro x _ _ rfl rfl
  rfl

theorem fold_const_eq_iterate {α : Type} (f : α → α) (n : Nat) (a : α) : Nat.fold n (fun _ _ a => f a) a = f^[n] a := by
  induction n with
  | zero => rfl
  | succ n ih => rw [Nat.fold_succ, ih, Function.iterate_succ_apply']

theorem roundsV1_eq_iterate (x : Word) : roundsV1 x = roundV1^[5] x := by
  rw [roundsV1, fold_const_eq_iterate]

theorem roundsV2_eq_iterate (st : Vector Word 16) : roundsV2 st = roundV2^[12] st := by
  rw [roundsV2, fold_const_eq_iterate]

/-- One V2 round in closed form: word 15 reads the new word 0 (44_finalize.md R182, R183). -/
theorem roundV2_getElem (st : Vector Word 16) (k : Nat) (hk : k < 16) :
    (roundV2 st)[k] =
      if h : k < 15 then emix (st[k] ^^^ st[k + 1]) else emix (st[15] ^^^ emix (st[0] ^^^ st[1])) := by
  rw [roundV2, fold_neighbour_getElem (fun x y => emix (x ^^^ y)) st 16 (le_refl 16) k hk, if_pos hk]

theorem emix_zero : emix 0#32 = 0#32 := by decide

/-- The corner case of R184 below the last word: equal neighbours cancel. -/
theorem roundV2_replicate_getElem (c : Word) (k : Nat) (h : k < 15) : (roundV2 (Vector.replicate 16 c))[k] = 0 := by
  simp [roundV2_getElem, h, emix_zero]

/-- The corner case of R184 at the last word, whose neighbour is already 0. -/
theorem roundV2_replicate_getElem_last (c : Word) : (roundV2 (Vector.replicate 16 c))[15] = emix c := by
  simp [roundV2_getElem, emix_zero]

/-- Settles O26: the values of `mix1` by evaluation, the loops as iterates, and the round on equal words by its closed form. -/
theorem finalRoundsAreFiveAndTwelve : Obligations.FinalRoundsAreFiveAndTwelve :=
  ⟨⟨fun _ => rfl, by decide⟩, roundsV1_eq_iterate, roundsV2_eq_iterate,
    fun c => ⟨roundV2_replicate_getElem c, roundV2_replicate_getElem_last c⟩⟩

end Sys2Proof.Machine

/-! The two block absorbers as chains of steps (43_absorb.md R162 to R165), and the proofs of O23 and O24. -/

namespace Sys2Proof.Machine

/-- A loop's result is the end of the chain of values its iterations leave. -/
theorem exists_fold_chain {α : Type} {n : Nat} (f : (j : Nat) → j < n → α → α) (a : α) :
    ∃ X : Nat → α, X 0 = a ∧ X n = Nat.fold n f a ∧ ∀ (j : Nat) (h : j < n), X (j + 1) = f j h (X j) := by
  induction n with
  | zero => exact ⟨fun _ => a, rfl, rfl, fun _ h => absurd h (Nat.not_lt_zero _)⟩
  | succ n ih =>
    obtain ⟨X, hstart, hend, hstep⟩ := ih fun j h => f j (Nat.lt_succ_of_lt h)
    refine ⟨Function.update X (n + 1) (f n (Nat.lt_succ_self n) (X n)), ?_, ?_, fun j h => ?_⟩
    · rw [Function.update_of_ne (Nat.succ_ne_zero n).symm, hstart]
    · rw [Function.update_self, hend, Nat.fold_succ]
    · rw [Function.update_of_ne (a := j) h.ne]
      obtain hj | rfl := Nat.lt_succ_iff_lt_or_eq.mp h
      · rw [Function.update_of_ne (by omega), hstep j hj]
      · rw [Function.update_self]

/-- The eight steps of `absorb_v1` (43_absorb.md R162). -/
theorem exists_absorbV1_chain (B : Vector Byte 32) (i : Nat) (x : Word) :
    ∃ X : Nat → Word, X 0 = x ∧ X 8 = absorbV1 B i x ∧ ∀ (j : Nat) (h : j < 8),
      X (j + 1) = mix1 (X j ^^^ rotl32 (wordAt B (4 * j) (by omega)) ((j + i % 32) % 32)) := by
  rw [absorbV1]
  exact exists_fold_chain _ x

/-- Settles O23: the loop's chain; at a block's offset the distance `(j + 0) mod 32` is `j`. -/
theorem absorbV1RunsEightSteps : Obligations.AbsorbV1RunsEightSteps := by
  intro B i x
  obtain ⟨X, hstart, hend, hstep⟩ := exists_absorbV1_chain B i x
  refine ⟨X, hstart, hend, fun j h => ⟨hstep j h, fun hi => ?_⟩⟩
  have hdistance : (j + i % 32) % 32 = j := by omega
  rw [hstep j h, hdistance, wordAt]

/-- The eight iterations of `absorb_v2`'s outer loop (43_absorb.md R164). -/
theorem exists_absorbV2_chain (salt : Vector Byte 16) (B : Vector Byte 32) (st : Vector Word 16) :
    ∃ S : Nat → Vector Word 16, S 0 = st ∧ S 8 = absorbV2 salt B st ∧ ∀ (j : Nat) (h : j < 8),
      S (j + 1) = absorbWordV2 (wordAt B (4 * j) (by omega) + (salt[j % 16]).setWidth 32) (S j) := by
  rw [absorbV2]
  exact exists_fold_chain _ st

/-- One iteration of the outer loop in closed form: word 15 reads the new word 0 (43_absorb.md R165). -/
theorem absorbWordV2_getElem (c : Word) (st : Vector Word 16) (k : Nat) (hk : k < 16) :
    (absorbWordV2 c st)[k] =
      if h : k < 15 then emix (st[k] ^^^ emix (c + st[k + 1]))
      else emix (st[15] ^^^ emix (c + emix (st[0] ^^^ emix (c + st[1])))) := by
  rw [absorbWordV2, fold_neighbour_getElem (fun x y => emix (x ^^^ emix (c + y))) st 16 (le_refl 16) k hk, if_pos hk]

theorem absorbWordV2_getElem_of_lt (c : Word) (st : Vector Word 16) (k : Nat) (h : k < 15) :
    (absorbWordV2 c st)[k] = emix (st[k] ^^^ emix (c + st[k + 1])) := by
  rw [absorbWordV2_getElem, dif_pos h]

theorem absorbWordV2_getElem_last (c : Word) (st : Vector Word 16) :
    (absorbWordV2 c st)[15] = emix (st[15] ^^^ emix (c + (absorbWordV2 c st)[0])) := by
  rw [absorbWordV2_getElem_of_lt c st 0 (by decide), absorbWordV2_getElem, dif_neg (by decide)]

/-- Settles O24: the outer loop's chain, each of whose steps is the inner loop in closed form. -/
theorem absorbV2RunsInPlace : Obligations.AbsorbV2RunsInPlace := by
  intro salt B st
  obtain ⟨S, hstart, hend, hstep⟩ := exists_absorbV2_chain salt B st
  refine ⟨S, hstart, hend, fun j h => ⟨_, rfl, ?_⟩⟩
  have hsalt : j % 16 = j := by omega
  simp only [hstep j h, wordAt, hsalt]
  exact ⟨absorbWordV2_getElem_of_lt _ (S j), absorbWordV2_getElem_last _ (S j)⟩

end Sys2Proof.Machine

/-! The V2 round in place, what the serializers and the salt XOR leave in each 4-byte slot, and what the DIGEST registers read after
FINALIZE (44_finalize.md R182 to R189), and the proofs of O25, O27 and O19. -/

namespace Sys2Proof.Machine

theorem roundV2_getElem_of_lt (st : Vector Word 16) (k : Nat) (h : k < 15) :
    (roundV2 st)[k] = emix (st[k] ^^^ st[k + 1]) := by
  rw [roundV2_getElem, dif_pos h]

theorem roundV2_getElem_last (st : Vector Word 16) : (roundV2 st)[15] = emix (st[15] ^^^ (roundV2 st)[0]) := by
  rw [roundV2_getElem_of_lt st 0 (by decide), roundV2_getElem, dif_neg (by decide)]

/-- Settles O25 by the round's closed form, whose last word reads the new word 0. -/
theorem finalRoundRunsInPlace : Obligations.FinalRoundRunsInPlace :=
  fun st => ⟨roundV2_getElem_of_lt st, roundV2_getElem_last st⟩

/-- Four bytes in place of a word's bytes read as that word (20_memory.md R52). -/
theorem wordAt_eq_of_wordBytes {n : Nat} {B : Vector Byte n} {p : Nat} {w : Word} (h : p + 4 ≤ n)
    (hbytes : ∀ (b : Nat) (hb : b < 4), B[p + b] = wordByte w b) : wordAt B p h = w := by
  have hfirst : B[p] = wordByte w 0 := hbytes 0 (by decide)
  rw [wordAt, hfirst, hbytes 1 (by decide), hbytes 2 (by decide), hbytes 3 (by decide), le32_wordByte]

theorem rotl32_mod (x : Word) (n : Nat) : rotl32 x (n % 32) = rotl32 x n := by
  rw [rotl32, rotl32, Nat.mod_mod]

theorem iterate_rotl32 (x : Word) (a m : Nat) : (fun y => rotl32 y a)^[m] x = rotl32 x (a * m) := by
  induction m with
  | zero => exact (rotl32_of_mod_eq_zero x (Nat.zero_mod 32)).symm
  | succ m ih => rw [Function.iterate_succ_apply', ih, rotl32_rotl32, Nat.mul_succ]

/-- The V1 serializer's bytes in closed form: slot `p / 4` rotates the word by `8 (p / 4) mod 32` (44_finalize.md R185). -/
theorem serializeV1_getElem_rotl32 (x : Word) (p : Nat) (hp : p < 32) :
    (serializeV1 x)[p] = wordByte (rotl32 x (8 * (p / 4) % 32)) (p % 4) := by
  rw [serializeV1_getElem, iterate_rotl32, rotl32_mod]

theorem wordAt_serializeV1 (x : Word) (m : Nat) (h : m < 8) :
    wordAt (serializeV1 x) (4 * m) (by omega) = rotl32 x (8 * m % 32) := by
  refine wordAt_eq_of_wordBytes _ fun b hb => ?_
  rw [serializeV1_getElem_rotl32, show (4 * m + b) / 4 = m by omega, show (4 * m + b) % 4 = b by omega]

theorem wordAt_serializeV2 (st : Vector Word 16) (m : Nat) (h : m < 8) :
    wordAt (serializeV2 st) (4 * m) (by omega) = st[m] := by
  refine wordAt_eq_of_wordBytes _ fun b hb => ?_
  have hslot : (4 * m + b) / 4 = m := by omega
  have hbyte : (4 * m + b) % 4 = b := by omega
  simp only [serializeV2_getElem, hslot, hbyte]

/-- Four rotations by 8 are a whole turn, so slots 4..7 repeat slots 0..3 (44_finalize.md R185). -/
theorem serializeV1_getElem_add_sixteen (x : Word) (p : Nat) (hp : p < 16) :
    (serializeV1 x)[16 + p] = (serializeV1 x)[p] := by
  have hturn : 8 * ((16 + p) / 4) % 32 = 8 * (p / 4) % 32 := by omega
  have hbyte : (16 + p) % 4 = p % 4 := by omega
  rw [serializeV1_getElem_rotl32, serializeV1_getElem_rotl32, hturn, hbyte]

theorem State.finalizeDigest_st_zero_v1 {s : State} (h : s.var = .v1) : s.finalizeDigest.st[0] = roundsV1 s.st[0] := by
  simp only [State.finalizeDigest_v1 h, Vector.getElem_set_self]

/-- Settles O27: each slot by its four bytes, the repetition by the whole turn. -/
theorem serializersPlaceTheWords : Obligations.SerializersPlaceTheWords :=
  ⟨fun _ => State.finalizeDigest_st_zero_v1, fun x st m h =>
    ⟨wordAt_serializeV1 x m h, wordAt_serializeV2 st m h, serializeV1_getElem_add_sixteen x⟩⟩

theorem saltXor_getElem_low (salt : Vector Byte 16) (out : Vector Byte 32) (p : Nat) (h : p < 16) :
    (saltXor salt out)[p] = out[p] ^^^ salt[p] := by
  rw [saltXor_getElem, dif_pos h]

theorem saltXor_getElem_high (salt : Vector Byte 16) (out : Vector Byte 32) (p : Nat) (hlo : 16 ≤ p) (hp : p < 32) :
    (saltXor salt out)[p] = out[p] := by
  rw [saltXor_getElem, dif_neg (Nat.not_lt.mpr hlo)]
  exact BitVec.xor_zero

theorem wordByte_xor (v w : Word) (b : Nat) : wordByte (v ^^^ w) b = wordByte v b ^^^ wordByte w b :=
  BitVec.extractLsb'_xor

/-- The salt XOR of R187 a word at a time, where it applies. -/
theorem wordAt_saltXor_low (salt : Vector Byte 16) (out : Vector Byte 32) (p : Nat) (h : p + 4 ≤ 16) :
    wordAt (saltXor salt out) p (by omega) = wordAt out p (by omega) ^^^ wordAt salt p h := by
  refine wordAt_eq_of_wordBytes _ fun b hb => ?_
  rw [saltXor_getElem_low _ _ _ (by omega), wordByte_xor, wordByte_wordAt _ _ _ b hb, wordByte_wordAt _ _ _ b hb]

/-- Above byte 16 the salt XOR leaves the output's words (44_finalize.md R187). -/
theorem wordAt_saltXor_high (salt : Vector Byte 16) (out : Vector Byte 32) (p : Nat) (hlo : 16 ≤ p) (h : p + 4 ≤ 32) :
    wordAt (saltXor salt out) p h = wordAt out p h := by
  refine wordAt_eq_of_wordBytes _ fun b hb => ?_
  rw [saltXor_getElem_high _ _ _ (by omega), wordByte_wordAt _ _ _ b hb]

/-- FINALIZE in ABSORB (45_commands.md R205). -/
theorem eq_of_exec_finalize {s t : State} (habsorb : s.phase = .absorb) (h : exec .finalize s = .next t) :
    t = s.padFinal.finalizeDigest.closeComputation := by
  rw [exec, execFinalize, if_pos habsorb] at h
  injection h with h
  exact h.symm

/-- In V1 DIGEST is made of the salt and the final `ST[0]` (44_finalize.md R188). -/
theorem State.finalizeDigest_digest_v1 {s : State} (h : s.var = .v1) :
    s.finalizeDigest.digest = saltXor s.finalizeDigest.salt (serializeV1 s.finalizeDigest.st[0]) := by
  rw [State.finalizeDigest_st_zero_v1 h, State.finalizeDigest_salt, State.finalizeDigest_v1 h]

/-- In V2 DIGEST is made of the salt and the final `ST` (44_finalize.md R188). -/
theorem State.finalizeDigest_digest_v2 {s : State} (h : s.var = .v2) :
    s.finalizeDigest.digest = saltXor s.finalizeDigest.salt (serializeV2 s.finalizeDigest.st) := by
  rw [State.finalizeDigest_salt, State.finalizeDigest_v2 h]

theorem digest_of_exec_finalize_v1 {s t : State} (habsorb : s.phase = .absorb) (h : exec .finalize s = .next t)
    (hvar : s.var = .v1) : t.digest = saltXor t.salt (serializeV1 t.st[0]) := by
  rw [eq_of_exec_finalize habsorb h]
  exact State.finalizeDigest_digest_v1 ((State.padFinal_var s).trans hvar)

theorem digest_of_exec_finalize_v2 {s t : State} (habsorb : s.phase = .absorb) (h : exec .finalize s = .next t)
    (hvar : s.var = .v2) : t.digest = saltXor t.salt (serializeV2 t.st) := by
  rw [eq_of_exec_finalize habsorb h]
  exact State.finalizeDigest_digest_v2 ((State.padFinal_var s).trans hvar)

/-- DIGEST4..DIGEST7 show what the serializer wrote (44_finalize.md R187). -/
theorem State.regRead_digest_high {t : State} {out : Vector Byte 32} (h : t.digest = saltXor t.salt out) (w : Nat)
    (hlo : 4 ≤ w) (hw : w < 8) : t.regRead (.digest ⟨w, hw⟩) = wordAt out (4 * w) (by omega) := by
  simp only [State.regRead, h, wordAt_saltXor_high t.salt out (4 * w) (by omega)]

/-- DIGEST0..DIGEST3 show what the serializer wrote, XORed with the SALT registers (44_finalize.md R187). -/
theorem State.regRead_digest_low {t : State} {out : Vector Byte 32} (h : t.digest = saltXor t.salt out) (w : Nat)
    (hw : w < 4) :
    t.regRead (.digest ⟨w, by omega⟩) = wordAt out (4 * w) (by omega) ^^^ t.regRead (.salt ⟨w, hw⟩) := by
  simp only [State.regRead, h, wordAt_saltXor_low t.salt out (4 * w) (by omega)]

/-- In V1 the upper half of DIGEST is the lower half with the salt XORed out again (44_finalize.md R189 b). -/
theorem State.digest_getElem_add_sixteen {t : State} {x : Word} (h : t.digest = saltXor t.salt (serializeV1 x)) (p : Nat)
    (hp : p < 16) : t.digest[16 + p] = t.digest[p] ^^^ t.salt[p] := by
  simp only [h]
  rw [saltXor_getElem_high _ _ _ (by omega), saltXor_getElem_low _ _ p hp, BitVec.xor_assoc, BitVec.xor_self,
    BitVec.xor_zero, serializeV1_getElem_add_sixteen x p hp]

/-- In V1 DIGEST4..DIGEST7 show the rotations of the serialized word (44_finalize.md R189 b). -/
theorem State.regRead_digest_high_v1 {t : State} {x : Word} (h : t.digest = saltXor t.salt (serializeV1 x)) (w : Nat)
    (hlo : 4 ≤ w) (hw : w < 8) : t.regRead (.digest ⟨w, hw⟩) = rotl32 x (8 * w % 32) := by
  rw [State.regRead_digest_high h w hlo hw, wordAt_serializeV1 x w hw]

/-- Settles O19: DIGEST is the salt XOR of the serialized final state, read slot by slot. -/
theorem digestRegistersShowTheState : Obligations.DigestRegistersShowTheState := by
  intro s t habsorb hexec
  refine ⟨fun hvar => ?_, fun hvar => ?_⟩
  · have hdigest := digest_of_exec_finalize_v1 habsorb hexec hvar
    have hreg := State.regRead_digest_high_v1 hdigest
    refine ⟨State.digest_getElem_add_sixteen hdigest, ?_, hreg 5 (by decide) (by decide), hreg 6 (by decide) (by decide),
      hreg 7 (by decide) (by decide)⟩
    calc t.regRead (.digest 4) = rotl32 t.st[0] 0 := hreg 4 (by decide) (by decide)
      _ = t.regRead (.state 0) := rotl32_of_mod_eq_zero _ (Nat.zero_mod 32)
  · have hdigest := digest_of_exec_finalize_v2 habsorb hexec hvar
    refine ⟨fun w h => ?_, fun w h => ?_⟩
    · rw [State.regRead_digest_high hdigest (4 + w) (by omega) (by omega), wordAt_serializeV2 t.st (4 + w) (by omega)]
    · rw [State.regRead_digest_low hdigest w h, wordAt_serializeV2 t.st w (by omega)]

end Sys2Proof.Machine

/-! The commands, one equation per way each is performed and what every command leaves unchanged (45_commands.md R200 to R207,
R211), and the proofs of O10, O11, O14, O18, O20, O21 and O35. -/

namespace Sys2Proof.Machine

/-! ### What a command does -/

theorem exec_append_of_absorb {s : State} {n : Nat} (h1 : 1 ≤ n) (h4 : n ≤ 4) (habsorb : s.phase = .absorb) :
    exec (.append n) s = .next (s.appendDin n) := by
  rw [exec, execAppend, if_pos ⟨h1, h4⟩, if_pos habsorb]

theorem exec_append_of_not_absorb {s : State} {n : Nat} (h1 : 1 ≤ n) (h4 : n ≤ 4) (hphase : s.phase ≠ .absorb) :
    exec (.append n) s = .next (s.raiseError .sequence) := by
  rw [exec, execAppend, if_pos ⟨h1, h4⟩, if_neg hphase]

theorem exec_finalize_of_absorb {s : State} (habsorb : s.phase = .absorb) :
    exec .finalize s = .next s.padFinal.finalizeDigest.closeComputation := by
  rw [exec, execFinalize, if_pos habsorb]

theorem exec_finalize_of_not_absorb {s : State} (hphase : s.phase ≠ .absorb) :
    exec .finalize s = .next (s.raiseError .sequence) := by
  rw [exec, execFinalize, if_neg hphase]

/-- Only START_V2R touches the random source (40_salt.md R103); no command touches the host's side of the window. -/
theorem exec_sameSurroundings {i : Instr} {s t : State} (h : exec i s = .next t) (hi : i ≠ .startV2R) :
    SameSurroundings s t := by
  rcases exec_next h with ⟨-, rfl⟩ | ⟨-, rfl⟩ | ⟨-, rfl⟩ | ⟨hdraw, -⟩ | ⟨n, -, -, -, ⟨-, rfl⟩ | ⟨-, rfl⟩⟩ |
    ⟨-, ⟨-, rfl⟩ | ⟨-, rfl⟩⟩ | ⟨-, rfl⟩
  case inr.inr.inr.inl => exact absurd hdraw hi
  all_goals constructor <;> simp [State.appendDin]

/-- A recorded error outlives every command but ABORT (60_exceptions.md R231; 45_commands.md R206). -/
theorem exec_err_of_recorded {i : Instr} {s t : State} (h : exec i s = .next t) (herr : s.err ≠ .noError)
    (hi : i ≠ .abort) : t.err = s.err := by
  rcases exec_next h with ⟨-, rfl⟩ | ⟨-, rfl⟩ | ⟨-, rfl⟩ | ⟨-, -, rfl⟩ | ⟨n, -, -, -, ⟨-, rfl⟩ | ⟨-, rfl⟩⟩ |
    ⟨-, ⟨-, rfl⟩ | ⟨-, rfl⟩⟩ | ⟨habort, -⟩
  case inr.inr.inr.inr.inr.inr => exact absurd habort hi
  all_goals simp [State.appendDin, herr]

/-- The reset values have STATUS 0 (10_state.md R34, R38). -/
theorem State.AtReset.statusWord_eq_zero {s : State} (h : s.AtReset) : s.statusWord = 0 := by
  rw [State.statusWord, h.phase, h.var, h.err, h.fill]
  rfl

theorem State.resetEngine_atReset (s : State) : s.resetEngine.AtReset where
  phase := rfl
  var := rfl
  err := rfl
  salt _ _ := by simp
  st _ _ := by simp
  buf _ _ := by simp
  fill := rfl
  len := rfl
  digest _ _ := by simp
  din := rfl

/-! ### The finalizer's state -/

/-- In V1 the finalizer runs five rounds on `ST[0]` (44_finalize.md R180, R181). -/
theorem State.finalizeDigest_st_zero_v1_iterate {s : State} (h : s.var = .v1) :
    s.finalizeDigest.st[0] = (fun x => mix1 (x ^^^ rotl32 x 17))^[5] s.st[0] := by
  rw [State.finalizeDigest_st_zero_v1 h, roundsV1_eq_iterate]
  rfl

/-- In V1 the finalizer writes `ST[0]` only (10_state.md R25). -/
theorem State.finalizeDigest_st_getElem_v1 {s : State} (h : s.var = .v1) (k : Nat) (hk : k < 16) (h1 : 1 ≤ k) :
    s.finalizeDigest.st[k] = s.st[k] := by
  simp only [State.finalizeDigest_v1 h]
  exact Vector.getElem_set_ne _ _ (by omega)

/-- In V2 the finalizer runs twelve rounds on `ST` (44_finalize.md R184). -/
theorem State.finalizeDigest_st_v2_iterate {s : State} (h : s.var = .v2) : s.finalizeDigest.st = roundV2^[12] s.st := by
  rw [State.finalizeDigest_v2 h, roundsV2_eq_iterate]

/-! ### The proofs -/

/-- Settles O21 by running the decoder; NOP's meaning is the identity. -/
theorem nopChangesNothing : Obligations.NopChangesNothing :=
  ⟨fun _ => rfl, by decide, by decide, by decide⟩

/-- Settles O10 field by field, the arrays by their closed forms. -/
theorem startV1OpensAComputation : Obligations.StartV1OpensAComputation := by
  refine ⟨by decide, fun s => ⟨_, rfl, rfl, rfl, rfl, fun i h => ?_, initV1_getElem 0 (by decide), fun k h hk => ?_,
    fun p h => saltBlock_getElem _ p h, rfl, rfl, fun p h => Vector.getElem_replicate h, rfl,
    exec_sameSurroundings (i := .startV1) rfl (by decide)⟩⟩
  · calc v1Salt[i] = BitVec.ofNat 8 (i * 17) := v1Salt_getElem i h
      _ = BitVec.ofNat 8 (i * 17 % 256) := BitVec.eq_of_toNat_eq (by simp)
  · exact (initV1_getElem k h).trans (if_neg (by omega))

/-- Settles O11 field by field, the arrays by their closed forms. -/
theorem startV2UsesTheInjectedSalt : Obligations.StartV2UsesTheInjectedSalt :=
  ⟨by decide, fun s => ⟨_, rfl, rfl, rfl, rfl, rfl, fun k h => initV2_getElem s.salt k h,
    fun p h => saltBlock_getElem s.salt p h, rfl, rfl, fun p h => Vector.getElem_replicate h, rfl,
    exec_sameSurroundings (i := .startV2) rfl (by decide)⟩⟩

/-- Settles O14: `appendBytes_spec` says what the bytes do to ST, BUF and FILL, and the rest is frame. -/
theorem appendFillsTheBlock : Obligations.AppendFillsTheBlock := by
  intro s n h1 h4
  refine ⟨?_, fun hphase => ?_, fun habsorb => ?_⟩
  · obtain ⟨hdecode, -, -⟩ := encodingLaw (.append n) (by simp [WellFormed, Instr.wellFormed, h1, h4])
    exact hdecode
  · rw [exec_append_of_not_absorb h1 h4 hphase, State.raiseError_eq]
  · have hexec := exec_append_of_absorb h1 h4 habsorb
    obtain ⟨hfill, hwithin, hacross⟩ := s.appendBytes_spec n h4
    refine ⟨s.appendDin n, hexec, ?_, ?_, ?_, ?_, ?_, ?_, ?_, hfill, exec_sameSurroundings hexec nofun, hwithin, hacross⟩
    all_goals simp [State.appendDin, habsorb]

/-- Settles O18: the padded state by cases on FILL, the rounds by cases on VAR, DIGEST as the salt XOR of the serialized state. -/
theorem finalizeWritesTheDigest : Obligations.FinalizeWritesTheDigest := by
  refine ⟨by decide, fun s hphase => ?_, fun s habsorb => ?_⟩
  · rw [exec_finalize_of_not_absorb hphase, State.raiseError_eq]
  have hexec := exec_finalize_of_absorb habsorb
  have hsalt : s.padFinal.finalizeDigest.closeComputation.salt = s.salt := by simp
  refine ⟨s.padFinal.finalizeDigest.closeComputation, s.padFinal.st, hexec, fun hfill => ?_, fun hfill => ?_, fun hvar => ?_,
    fun hvar => ?_, rfl, ?_, ?_, ?_, ?_, ?_, ?_, exec_sameSurroundings hexec nofun⟩
  · simp [State.padFinal_of_empty hfill]
  · simp [State.padFinal_of_partial hfill]
  · have hpad : s.padFinal.var = .v1 := s.padFinal_var.trans hvar
    refine ⟨State.finalizeDigest_st_zero_v1_iterate hpad, State.finalizeDigest_st_getElem_v1 hpad, fun p h => ?_⟩
    simp only [digest_of_exec_finalize_v1 habsorb hexec hvar, saltXor_getElem, hsalt]
  · have hpad : s.padFinal.var = .v2 := s.padFinal_var.trans hvar
    refine ⟨State.finalizeDigest_st_v2_iterate hpad, fun p h => ?_⟩
    simp only [digest_of_exec_finalize_v2 habsorb hexec hvar, saltXor_getElem, hsalt]
  all_goals simp

/-- Settles O20: ABORT is the reset of the engine, and any other command keeps a recorded error. -/
theorem abortReturnsToReset : Obligations.AbortReturnsToReset := by
  refine ⟨by decide, fun s => ?_, fun i s t hexec herr hclear => ?_⟩
  · exact ⟨s.resetEngine, rfl, s.resetEngine_atReset, s.resetEngine_atReset.statusWord_eq_zero,
      exec_sameSurroundings (i := .abort) rfl (by decide)⟩
  · by_contra habort
    exact herr ((exec_err_of_recorded hexec herr habort).symm.trans hclear)

/-- Settles O35: the word decides the command, and `exec_next` lists how each one completes. -/
theorem phaseFollowsTheTable : Obligations.PhaseFollowsTheTable := by
  intro s t v h
  rw [s.regWrite_cmd] at h
  refine ⟨fun i hi => ?_, fun e he => ?_⟩
  · rw [State.executeCommand_of_ok hi] at h
    rcases exec_next h with ⟨rfl, rfl⟩ | ⟨rfl, rfl⟩ | ⟨rfl, rfl⟩ | ⟨rfl, -, rfl⟩ |
      ⟨n, rfl, -, -, ⟨hphase, rfl⟩ | ⟨hphase, rfl⟩⟩ | ⟨rfl, ⟨hphase, rfl⟩ | ⟨hphase, rfl⟩⟩ | ⟨rfl, rfl⟩
    all_goals simp [State.appendDin, *]
  · rw [State.executeCommand_of_error he] at h
    injection h with h
    simp [← h]

end Sys2Proof.Machine

/-! The table of 60_exceptions.md R232 as an inversion lemma, the writes it names against those it does not (R231), and the proof of
O33. -/

namespace Sys2Proof.Machine

theorem regAt_cmd : regAt 0x00 = .cmd := rfl

theorem exists_regAt_eq_salt {off : Nat} (hlo : 0x10 ≤ off) (hhi : off ≤ 0x1C) : ∃ w, regAt off = .salt w := by
  unfold regAt
  rw [if_neg (by omega), if_neg (by omega), if_neg (by omega), dif_pos ⟨hlo, hhi⟩]
  exact ⟨_, rfl⟩

/-- The rows of R232: a write raises a code exactly if it stands in one of them. -/
theorem raisedBy_eq_some_iff {p : Phase} {off : Nat} {v : Word} {c : ErrCode} :
    raisedBy p off v = some c ↔
      (off = 0x00 ∧ (∃ e, decode v = .error e) ∧ c = .illegal) ∨
      (off = 0x00 ∧ ((∃ n, decode v = .ok (.append n)) ∨ decode v = .ok .finalize) ∧ p ≠ .absorb ∧ c = .sequence) ∨
      (0x10 ≤ off ∧ off ≤ 0x1C ∧ p = .absorb ∧ c = .locked) := by
  unfold raisedBy
  by_cases hoff : off = 0x00
  · subst hoff
    cases hdecode : decode v with
    | error e => simp [eq_comm]
    | ok i => cases i <;> simp [eq_comm]
  · simp [hoff, and_assoc, eq_comm]

/-- An APPEND or FINALIZE word outside ABSORB (45_commands.md R200). -/
theorem State.executeCommand_of_sequence {s : State} {v : Word}
    (hv : (∃ n, decode v = .ok (.append n)) ∨ decode v = .ok .finalize) (hphase : s.phase ≠ .absorb) :
    s.executeCommand v = .next (s.raiseError .sequence) := by
  rcases hv with ⟨n, hv⟩ | hv
  · have hn : 1 ≤ n ∧ n ≤ 4 := by simpa [WellFormed, Instr.wellFormed] using decode_wellFormed hv
    rw [State.executeCommand_of_ok hv, exec_append_of_not_absorb hn.1 hn.2 hphase]
  · rw [State.executeCommand_of_ok hv, exec_finalize_of_not_absorb hphase]

/-- A write that R232 names records its code and does nothing else (60_exceptions.md R231). -/
theorem State.regWrite_of_raisedBy {s : State} {off : Nat} {v : Word} {c : ErrCode}
    (h : raisedBy s.phase off v = some c) : s.regWrite (regAt off) v = .next (s.raiseError c) := by
  rcases raisedBy_eq_some_iff.mp h with ⟨rfl, ⟨e, he⟩, rfl⟩ | ⟨rfl, hv, hphase, rfl⟩ | ⟨hlo, hhi, habsorb, rfl⟩
  · rw [regAt_cmd, s.regWrite_cmd, State.executeCommand_of_error he]
  · rw [regAt_cmd, s.regWrite_cmd, State.executeCommand_of_sequence hv hphase]
  · obtain ⟨w, hw⟩ := exists_regAt_eq_salt hlo hhi
    rw [hw, State.regWrite_salt_of_absorb w v habsorb]

/-- A command leaves ERR, but for ABORT and for one the phase does not admit (45_commands.md R211). -/
theorem exec_err {i : Instr} {s t : State} (h : exec i s = .next t) :
    t.err = s.err ∨ (i = .abort ∧ t.err = .noError) ∨
      (((∃ n, i = .append n) ∨ i = .finalize) ∧ s.phase ≠ .absorb) := by
  rcases exec_next h with ⟨-, rfl⟩ | ⟨-, rfl⟩ | ⟨-, rfl⟩ | ⟨-, -, rfl⟩ | ⟨n, hi, -, -, ⟨-, rfl⟩ | ⟨hphase, -⟩⟩ |
    ⟨hi, ⟨-, rfl⟩ | ⟨hphase, -⟩⟩ | ⟨hi, rfl⟩
  case inr.inr.inr.inr.inl.inr => exact .inr (.inr ⟨.inl ⟨n, hi⟩, hphase⟩)
  case inr.inr.inr.inr.inr.inl.inr => exact .inr (.inr ⟨.inr hi, hphase⟩)
  case inr.inr.inr.inr.inr.inr => exact .inr (.inl ⟨hi, rfl⟩)
  all_goals simp [State.appendDin]

/-- A write that R232 does not name leaves ERR, but for ABORT. -/
theorem State.regWrite_err_of_raisedBy_eq_none {s t : State} {off : Nat} {v : Word}
    (hnone : raisedBy s.phase off v = none) (h : s.regWrite (regAt off) v = .next t) :
    t.err = s.err ∨ (t.err = .noError ∧ off = 0x00 ∧ decode v = .ok .abort) := by
  have hnot : ∀ c, raisedBy s.phase off v ≠ some c := by simp [hnone]
  rcases State.regWrite_next h with ⟨hcmd, ⟨i, hi, hexec⟩ | ⟨he, -⟩⟩ | ⟨-, rfl⟩ |
    ⟨w, hw, ⟨habsorb, -⟩ | ⟨-, rfl⟩⟩ | ⟨-, -, -, rfl⟩
  · rcases exec_err hexec with hkeep | ⟨rfl, hclear⟩ | ⟨hi', hphase⟩
    · exact .inl hkeep
    · exact .inr ⟨hclear, regAt_eq_cmd hcmd, hi⟩
    · have hv : (∃ n, decode v = .ok (.append n)) ∨ decode v = .ok .finalize := by simpa [hi] using hi'
      exact absurd (raisedBy_eq_some_iff.mpr (.inr (.inl ⟨regAt_eq_cmd hcmd, hv, hphase, rfl⟩))) (hnot _)
  · exact absurd (raisedBy_eq_some_iff.mpr (.inl ⟨regAt_eq_cmd hcmd, he, rfl⟩)) (hnot _)
  · exact .inl (s.writeDin_err v)
  · obtain ⟨hlo, hhi⟩ := regAt_eq_salt hw
    exact absurd (raisedBy_eq_some_iff.mpr (.inr (.inr ⟨hlo, hhi, habsorb, rfl⟩))) (hnot _)
  · exact .inl (s.writeSaltWord_err w v)
  · exact .inl rfl

/-- The `err` output (20_memory.md R54; 60_exceptions.md R231). -/
theorem State.errOut_iff (s : State) : s.errOut = true ↔ s.err ≠ .noError := bne_iff_ne

/-- Settles O33: a write in a row of R232 is the recording of its code, and any other write is one of those that keep ERR. -/
theorem accessErrorsFollowTheTable : Obligations.AccessErrorsFollowTheTable := by
  intro s off v _ _
  refine ⟨fun c hc => ?_, fun hnone t => State.regWrite_err_of_raisedBy_eq_none hnone, s.errOut_iff⟩
  rw [State.regWrite_of_raisedBy hc, State.raiseError_eq]

end Sys2Proof.Machine

/-! Decoding and encoding as inverse operations, the dispatch of a CMD write, and the byte counts no word encodes (30_encoding.md
R80 to R84; 45_commands.md R200), and the proofs of O1, O16 and O17. -/

namespace Sys2Proof

theorem decode_encode {i : Instr} (h : WellFormed i) : decode (encode i) = .ok i := by
  obtain ⟨hdecode, -, -⟩ := encodingLaw i h
  exact hdecode

theorem wellFormed_append_iff (n : Nat) : WellFormed (.append n) ↔ 1 ≤ n ∧ n ≤ 4 := by
  simp [WellFormed, Instr.wellFormed]

/-- Settles O1: `encode_of_decode` one way, the per-command laws the other. -/
theorem decodeAndEncodeAgree : Obligations.DecodeAndEncodeAgree := by
  intro w i
  constructor
  · intro h
    exact ⟨decode_wellFormed h, encode_of_decode h⟩
  · rintro ⟨hwf, rfl⟩
    exact decode_encode hwf

namespace Machine

/-- Settles O16: an illegal word and a SEQUENCE word record their error, any other word is performed. -/
theorem dispatchChecksWordThenPhase : Obligations.DispatchChecksWordThenPhase := by
  intro s v
  rw [regAt_cmd, s.regWrite_cmd]
  refine ⟨fun e he => ?_, fun i hi => ⟨fun hphase hseq => ?_, fun _ => State.executeCommand_of_ok hi⟩⟩
  · rw [State.executeCommand_of_error he, State.raiseError_eq]
  · have hv : (∃ n, decode v = .ok (.append n)) ∨ decode v = .ok .finalize := by
      rcases hseq with rfl | ⟨n, rfl⟩
      · exact .inr hi
      · exact .inl ⟨n, hi⟩
    rw [State.executeCommand_of_sequence hv hphase, State.raiseError_eq]

theorem exec_append_of_not_wellFormed {n : Nat} (h : ¬ WellFormed (.append n)) (s : State) :
    exec (.append n) s = .refused .noSuchByteCount := by
  rw [exec, execAppend, if_neg (mt (wellFormed_append_iff n).mpr h)]

/-- Settles O17: such a term is not well-formed, and a word decodes to well-formed commands only. -/
theorem unencodableAppendIsRefused : Obligations.UnencodableAppendIsRefused := by
  intro s n hn
  have hwf : ¬ WellFormed (.append n) := by
    rw [wellFormed_append_iff]
    omega
  exact ⟨exec_append_of_not_wellFormed hwf s, fun w hw => hwf (decode_wellFormed hw)⟩

end Machine

end Sys2Proof

/-! The registers by their offsets, and what a read returns, on its own and after a write (20_memory.md R55, R57, R60 to R62;
70_reset_and_hazards.md R270), and the proofs of O28, O32 and O53. -/

namespace Sys2Proof.Machine

/-- The STATE registers' offsets (20_memory.md R55). -/
theorem regAt_state (k : Nat) (h : k < 16) : regAt (0x40 + 4 * k) = .state ⟨k, h⟩ := by
  unfold regAt
  rw [if_neg (by omega), if_neg (by omega), if_neg (by omega), dif_neg (by omega), dif_neg (by omega), dif_pos (by omega)]
  simp

/-- The window's map undoes the registers' offsets (20_memory.md R55). -/
theorem regAt_offset (r : Reg) : regAt r.offset = r := by
  cases r with
  | salt w => exact regAt_salt w.val w.isLt
  | digest w => exact regAt_digest w.val w.isLt
  | state k => exact regAt_state k.val k.isLt
  | cmd | status | din | lenLo | lenHi | reserved => rfl

theorem Reg.offset_lt (r : Reg) : r.offset < 0x100 := by
  cases r <;> simp only [Reg.offset] <;> omega

theorem Reg.offset_mod_four (r : Reg) : r.offset % 4 = 0 := by
  cases r <;> simp only [Reg.offset] <;> omega

theorem regAt_reserved {off : Nat} (h : off = 0x0C ∨ 0x88 ≤ off) : regAt off = .reserved := by
  unfold regAt
  rw [if_neg (by omega), if_neg (by omega), if_neg (by omega), dif_neg (by omega), dif_neg (by omega), dif_neg (by omega),
    if_neg (by omega), if_neg (by omega)]

theorem State.regRead_lenLo_toNat (s : State) : (s.regRead .lenLo).toNat = s.len.toNat % 2 ^ 32 := by
  rw [State.regRead, BitVec.extractLsb'_toNat, Nat.shiftRight_zero]

theorem State.regRead_lenHi_toNat (s : State) : (s.regRead .lenHi).toNat = s.len.toNat / 2 ^ 32 := by
  have hlen := s.len.isLt
  rw [State.regRead, BitVec.extractLsb'_toNat, Nat.shiftRight_eq_div_pow, Nat.mod_eq_of_lt (by omega)]

/-- Settles O28, register by register; the words inside the byte arrays are little-endian by definition. -/
theorem registerReadValues : Obligations.RegisterReadValues := by
  intro s off _ _
  refine ⟨?_, ?_, ?_, fun w h => ?_, fun w h => ?_, fun k h => ?_, ?_, ?_, fun h => by rw [regAt_reserved h]; rfl⟩
  all_goals rintro rfl
  · rfl
  · rfl
  · rfl
  · rw [regAt_salt w h]
    rfl
  · rw [regAt_digest w h]
    rfl
  · rw [regAt_state k h]
    rfl
  · exact s.regRead_lenLo_toNat
  · exact s.regRead_lenHi_toNat

/-- Writing one aligned word leaves the others (20_memory.md R53). -/
theorem wordAt_setWordAt_of_disjoint {n : Nat} (B : Vector Byte n) (p q : Nat) (w : Word) (hp : p + 4 ≤ n) (hq : q + 4 ≤ n)
    (hdisj : q + 4 ≤ p ∨ p + 4 ≤ q) : wordAt (setWordAt B p w hp) q hq = wordAt B q hq := by
  refine wordAt_eq_of_wordBytes hq fun b hb => ?_
  rw [setWordAt_getElem_outside _ _ _ _ _ _ (by omega), wordByte_wordAt B q hq b hb]

/-- Settles O32: a DIN read returns the field, a SALT read the word just written or one beside it. -/
theorem readsSeeEarlierWrites : Obligations.ReadsSeeEarlierWrites := by
  intro s v w hw
  refine ⟨⟨_, s.regWrite_din v, rfl⟩, fun hphase => ⟨s.writeSaltWord ⟨w, hw⟩ v, ?_, ?_, fun u hu hne => ?_⟩⟩
  · rw [regAt_salt w hw, State.regWrite_salt_of_not_absorb _ _ hphase]
  · rw [regAt_salt w hw]
    exact wordAt_setWordAt s.salt (4 * w) v (by omega)
  · rw [regAt_salt u hu]
    exact wordAt_setWordAt_of_disjoint s.salt (4 * w) (4 * u) v (by omega) (by omega) (by omega)

theorem State.doneOut_iff (s : State) : s.doneOut = true ↔ s.phase = .done := beq_iff_eq

/-- Settles O53: the outputs by definition, the fields of STATUS by cases on PHASE and ERR. -/
theorem levelOutputsFollowTheState : Obligations.LevelOutputsFollowTheState := by
  intro s
  refine ⟨s.doneOut_iff, ?_, s.errOut_iff, ?_⟩
  · rw [s.doneOut_iff, s.statusWord_phase]
    cases s.phase <;> decide
  · rw [s.errOut_iff, s.statusWord_err]
    cases s.err <;> decide

end Sys2Proof.Machine

/-! The random source (40_salt.md R103; 70_reset_and_hazards.md R276) and what a step on an access, a command or a reset does
(20_memory.md R56 to R65), and the proofs of O12, O13, O36, O37 and O41. -/

namespace Sys2Proof.Machine

theorem State.drawsReady_iff (s : State) : s.drawsReady = true ↔ s.rngMore = true ∨ 16 ≤ s.rngQueued.length := by
  simp [State.drawsReady]

theorem State.drawnSalt_getElem (s : State) (b : Nat) (h : b < 16) : s.drawnSalt[b] = s.drawnByte b := by
  simp [State.drawnSalt]

/-- The queued bytes first, then the free ones (log entry 4). -/
theorem State.drawnByte_eq (s : State) (b : Nat) :
    s.drawnByte b = if h : b < s.rngQueued.length then s.rngQueued[b] else Config.rngByte (s.rngDrawn + b) := by
  rw [State.drawnByte]
  split_ifs with h
  · exact List.getD_eq_getElem _ _ h
  · exact List.getD_eq_default _ _ (by omega)

theorem exec_startV2R_of_ready {s : State} (h : s.drawsReady = true) :
    exec .startV2R s = .next s.drawSalt.selectV2.startBuffer.openComputation := by
  rw [exec, execStartV2R, if_pos h]

theorem exec_startV2R_of_not_ready {s : State} (h : ¬ s.drawsReady = true) : exec .startV2R s = .fault .randomStall := by
  rw [exec, execStartV2R, if_neg h]

/-- Settles O12 field by field, as O11, with the drawn bytes as the salt. -/
theorem startV2RUsesTheDrawnSalt : Obligations.StartV2RUsesTheDrawnSalt := by
  refine ⟨by decide, fun s hready => ⟨_, exec_startV2R_of_ready (s.drawsReady_iff.mpr hready), rfl, rfl, rfl, fun b h => ?_,
    fun k h => initV2_getElem s.drawnSalt k h, fun p h => saltBlock_getElem s.drawnSalt p h, rfl, rfl,
    fun p h => Vector.getElem_replicate h, rfl, rfl, rfl, rfl, rfl, rfl, rfl⟩⟩
  exact (s.drawnSalt_getElem b h).trans (s.drawnByte_eq b)

/-! ### Steps -/

theorem State.pendingUntilReset_of_head?_ne {s : State} (h : s.inputs.head? ≠ some .rst) (r : Result) :
    s.pendingUntilReset r = r := by
  unfold State.pendingUntilReset
  split
  · rename_i hi
    exact absurd (by rw [hi]; rfl) h
  · rfl

theorem State.pendingUntilReset_stall {s : State} {rest : List Input} (h : s.inputs = .rst :: rest) :
    s.pendingUntilReset (.fault .randomStall) = .next s.takeQueuedBytes := by
  unfold State.pendingUntilReset
  rw [h]

/-- A CMD write of a legal word is the command, pending while it stalls (45_commands.md R200; 70_reset_and_hazards.md R276). -/
theorem step_command_eq {s : State} {i : Instr} {v : Word} {rest : List Input} (hi : s.inputs = .write s.base 4 v :: rest)
    (hd : decode v = .ok i) : step s = (s.withInputs rest).pendingUntilReset (exec i (s.withInputs rest)) := by
  rw [step_write (off := 0x00) (by decide) (by decide) hi, regAt_cmd, State.regWrite_cmd, State.executeCommand_of_ok hd]

theorem step_rst {s : State} {rest : List Input} (hi : s.inputs = .rst :: rest) :
    step s = .next (s.withInputs rest).resetEngine := by
  rw [step, State.serve, hi]

theorem step_nil {s : State} (hi : s.inputs = []) : step s = .next s := by
  rw [step, State.serve, hi]

/-- Settles O13: the stall stays pending, and the reset that abandons it leaves the reset values. -/
theorem startV2RStallsUntilReset : Obligations.StartV2RStallsUntilReset := by
  intro s rest hmore hshort hi
  have hnot : ¬ s.drawsReady = true := by
    simp only [s.drawsReady_iff, hmore, Bool.false_eq_true, false_or]
    omega
  have hstep := step_command_eq (i := .startV2R) hi (by decide)
  rw [exec_startV2R_of_not_ready (s := s.withInputs rest) hnot] at hstep
  refine ⟨exec_startV2R_of_not_ready hnot, fun hne => ?_, fun hrst => ?_⟩
  · rw [hstep, State.pendingUntilReset_of_head?_ne hne]
  · obtain ⟨later, rfl⟩ := List.head?_eq_some_iff.mp hrst
    rw [State.pendingUntilReset_stall rfl] at hstep
    exact ⟨_, _, hstep, step_rst rfl, State.resetEngine_atReset _, rfl⟩

/-- A register write other than to CMD is never pending. -/
theorem State.pendingUntilReset_regWrite (s u : State) {r : Reg} (v : Word) (hr : r ≠ .cmd) :
    s.pendingUntilReset (u.regWrite r v) = u.regWrite r v := by
  cases r with
  | cmd => exact absurd rfl hr
  | din | salt | status | digest | state | lenLo | lenHi | reserved => rfl

/-- Settles O36: an access in the window is the register's read or write, on the state with the access taken off. -/
theorem stepRunsTheDecodedCommand : Obligations.StepRunsTheDecodedCommand := by
  refine ⟨fun s off rest hlt hmod hi => step_read hlt hmod hi, fun s v i rest hi hd => ⟨fun t => step_command hi hd, ?_⟩,
    fun s v e rest hi hd => ?_, fun s off v rest hlt hmod hcmd hi => ?_, fun s t w i hd hexec => ?_, fun s => step_nil⟩
  · intro f hf hne
    rw [step_command_eq hi hd, State.pendingUntilReset_of_head?_ne hne]
    exact hf
  · rw [step_illegal hi hd, State.raiseError_eq]
    rfl
  · rw [step_write hlt hmod hi, State.pendingUntilReset_regWrite _ _ v (mt regAt_eq_cmd hcmd)]
    rfl
  · exact step_command (s := s.withFetchWord 32 w) rfl hd hexec

theorem windowOffset_eq_none {base addr size : Nat}
    (h : size ≠ 4 ∨ addr < base ∨ base + 0x100 ≤ addr ∨ (addr - base) % 4 ≠ 0) : windowOffset base addr size = none := by
  unfold windowOffset
  rw [if_neg (by omega)]

/-- Settles O37: such an access names no offset of the window. -/
theorem outsideTheContractIsRefused : Obligations.OutsideTheContractIsRefused := by
  intro s addr size v rest hout
  have hnone : windowOffset (s.withInputs rest).base addr size = none := windowOffset_eq_none hout
  refine ⟨fun hi => ?_, fun hi => ?_⟩
  · simp only [step, State.serve, hi, State.readAccess, hnone]
  · simp only [step, State.serve, hi, State.writeAccess, hnone]

theorem State.reset_atReset : State.reset.AtReset := State.resetEngine_atReset State.reset

/-- Settles O41: ABORT, a reset step and `State.reset` all leave the engine's reset values. -/
theorem resetValues : Obligations.ResetValues := by
  refine ⟨State.reset_atReset, State.reset_atReset.statusWord_eq_zero, fun s t h => ?_, fun s rest hi => ?_⟩
  · injection h with h
    exact h ▸ s.resetEngine_atReset
  · exact ⟨_, step_rst hi, State.resetEngine_atReset _, rfl⟩

end Sys2Proof.Machine

/-! Commands that commute with an update of one field: APPEND with DIN's high bytes, every command with ERR
(70_reset_and_hazards.md R273; 60_exceptions.md R234), and the proofs of O15 and O22. -/

namespace Sys2Proof.Machine

theorem State.appendByte_writeDin (s : State) (d : Word) (x : Byte) :
    (s.writeDin d).appendByte x = (s.appendByte x).writeDin d := by
  unfold State.appendByte
  rw [State.writeDin_fill]
  split_ifs <;> rfl

theorem State.appendBytes_writeDin (s : State) (d : Word) (n : Nat)
    (h : ∀ b, b < n → wordByte d b = wordByte s.din b) : (s.writeDin d).appendBytes n = (s.appendBytes n).writeDin d := by
  induction n with
  | zero => rfl
  | succ n ih =>
    rw [State.appendBytes_succ, State.appendBytes_succ, ih fun b hb => h b (Nat.lt_succ_of_lt hb),
      State.appendByte_writeDin, State.writeDin_din, State.appendBytes_din, h n (Nat.lt_succ_self n)]

theorem State.raiseError_writeDin (s : State) (d : Word) (c : ErrCode) :
    (s.writeDin d).raiseError c = (s.raiseError c).writeDin d := by
  rw [State.raiseError_eq, State.raiseError_eq]
  rfl

/-- Settles O15: the bytes APPEND takes are equal, and nothing else of it reads DIN. -/
theorem appendIgnoresTheHighBytes : Obligations.AppendIgnoresTheHighBytes := by
  intro s t n d hbytes hexec
  change exec (.append n) (s.writeDin d) = .next (t.writeDin d)
  rcases exec_next hexec with ⟨hi, -⟩ | ⟨hi, -⟩ | ⟨hi, -⟩ | ⟨hi, -⟩ |
    ⟨_, ⟨⟩, h1, h4, ⟨hphase, rfl⟩ | ⟨hphase, rfl⟩⟩ | ⟨hi, -⟩ | ⟨hi, -⟩
  case inr.inr.inr.inr.inl.inl =>
    rw [exec_append_of_absorb (s := s.writeDin d) h1 h4 hphase, State.appendDin, State.appendBytes_writeDin s d n hbytes]
    rfl
  case inr.inr.inr.inr.inl.inr =>
    rw [exec_append_of_not_absorb (s := s.writeDin d) h1 h4 hphase, State.raiseError_writeDin]
  all_goals cases hi

/-- The state with another error code in it. -/
def State.withErr (s : State) (e : ErrCode) : State := { s with err := e }

theorem State.drawSalt_withErr (s : State) (e : ErrCode) : (s.withErr e).drawSalt = s.drawSalt.withErr e := by
  have hsalt : (s.withErr e).drawnSalt = s.drawnSalt := by
    unfold State.drawnSalt
    rfl
  unfold State.drawSalt
  rw [hsalt]
  rfl

theorem State.appendByte_withErr (s : State) (e : ErrCode) (x : Byte) :
    (s.withErr e).appendByte x = (s.appendByte x).withErr e := by
  have hfill : (s.withErr e).fill = s.fill := rfl
  unfold State.appendByte
  rw [hfill]
  split_ifs <;> rfl

theorem State.appendBytes_withErr (s : State) (e : ErrCode) (n : Nat) :
    (s.withErr e).appendBytes n = (s.appendBytes n).withErr e := by
  induction n with
  | zero => rfl
  | succ n ih =>
    rw [State.appendBytes_succ, State.appendBytes_succ, ih, State.appendByte_withErr]
    rfl

theorem State.padFinal_withErr (s : State) (e : ErrCode) : (s.withErr e).padFinal = s.padFinal.withErr e := by
  have hfill : (s.withErr e).fill = s.fill := rfl
  unfold State.padFinal
  rw [hfill]
  split_ifs <;> rfl

theorem State.finalizeDigest_withErr (s : State) (e : ErrCode) : (s.withErr e).finalizeDigest = s.finalizeDigest.withErr e := by
  have hvar : (s.withErr e).var = s.var := rfl
  unfold State.finalizeDigest
  rw [hvar]
  cases s.var <;> rfl

/-- Settles O22, command by command: ERR is neither read by the shared operations nor part of what they write. -/
theorem errorsBlockNoCommand : Obligations.ErrorsBlockNoCommand := by
  intro i s t e hexec
  change ∃ u, exec i (s.withErr e) = .next u ∧ u.withErr t.err = t
  rcases exec_next hexec with ⟨rfl, rfl⟩ | ⟨rfl, rfl⟩ | ⟨rfl, rfl⟩ | ⟨rfl, hready, rfl⟩ |
    ⟨n, rfl, h1, h4, ⟨hphase, rfl⟩ | ⟨hphase, rfl⟩⟩ | ⟨rfl, ⟨hphase, rfl⟩ | ⟨hphase, rfl⟩⟩ | ⟨rfl, rfl⟩
  · exact ⟨_, rfl, rfl⟩
  · exact ⟨_, rfl, rfl⟩
  · exact ⟨_, rfl, rfl⟩
  · refine ⟨_, exec_startV2R_of_ready hready, ?_⟩
    rw [State.drawSalt_withErr]
    rfl
  · refine ⟨_, exec_append_of_absorb h1 h4 hphase, ?_⟩
    rw [State.appendDin, State.appendBytes_withErr]
    rfl
  · refine ⟨_, exec_append_of_not_absorb h1 h4 hphase, ?_⟩
    rw [State.raiseError_eq, State.raiseError_eq]
    rfl
  · refine ⟨_, exec_finalize_of_absorb hphase, ?_⟩
    rw [State.padFinal_withErr, State.finalizeDigest_withErr]
    rfl
  · refine ⟨_, exec_finalize_of_not_absorb hphase, ?_⟩
    rw [State.raiseError_eq, State.raiseError_eq]
    rfl
  · exact ⟨_, rfl, rfl⟩

end Sys2Proof.Machine

/-! What a register write and a step leave of the surroundings, the salt, the variant and ERR (10_state.md R23, R33; 20_memory.md
R65, R69; 60_exceptions.md R238), and the proofs of O34, O38, O39 and O40. -/

namespace Sys2Proof.Machine

/-- VAR changes by START and ABORT only, SALT in ABSORB neither (10_state.md R33). -/
theorem exec_var_salt {i : Instr} {s t : State} (h : exec i s = .next t) (h1 : i ≠ .startV1) (h2 : i ≠ .startV2)
    (h2R : i ≠ .startV2R) (habort : i ≠ .abort) : t.var = s.var ∧ t.salt = s.salt := by
  rcases exec_next h with ⟨-, rfl⟩ | ⟨hi, -⟩ | ⟨hi, -⟩ | ⟨hi, -⟩ | ⟨n, -, -, -, ⟨-, rfl⟩ | ⟨-, rfl⟩⟩ |
    ⟨-, ⟨-, rfl⟩ | ⟨-, rfl⟩⟩ | ⟨hi, -⟩
  case inr.inl => exact absurd hi h1
  case inr.inr.inl => exact absurd hi h2
  case inr.inr.inr.inl => exact absurd hi h2R
  case inr.inr.inr.inr.inr.inr => exact absurd hi habort
  all_goals simp [State.appendDin]

/-- Settles O34, by the ways a register write completes. -/
theorem saltAndVariantFixedDuringAbsorb : Obligations.SaltAndVariantFixedDuringAbsorb := by
  intro s t off v _ _ h hcommand
  rcases State.regWrite_next h with ⟨hcmd, ⟨i, hi, hexec⟩ | ⟨-, rfl⟩⟩ | ⟨-, rfl⟩ | ⟨w, -, ⟨-, rfl⟩ | ⟨hphase, rfl⟩⟩ |
    ⟨-, -, -, rfl⟩
  · have hoff := regAt_eq_cmd hcmd
    obtain ⟨h1, h2, h2R, habort⟩ := hcommand i hoff hi
    obtain ⟨hvar, hsalt⟩ := exec_var_salt hexec h1 h2 h2R habort
    exact ⟨hvar, fun _ => hsalt, fun hne => absurd hoff hne⟩
  case inr.inr.inl.inr => exact ⟨rfl, fun habsorb => absurd habsorb hphase, fun _ => rfl⟩
  all_goals simp

/-- A register write leaves the window, the inputs and the replies alone (20_memory.md R65). -/
theorem State.regWrite_surroundings {s t : State} {r : Reg} {v : Word} (h : s.regWrite r v = .next t) :
    t.base = s.base ∧ t.inputs = s.inputs ∧ t.replies = s.replies := by
  rcases State.regWrite_next h with ⟨-, ⟨i, -, hexec⟩ | ⟨-, rfl⟩⟩ | ⟨-, rfl⟩ | ⟨w, -, ⟨-, rfl⟩ | ⟨-, rfl⟩⟩ | ⟨-, -, -, rfl⟩
  · exact exec_surroundings hexec
  all_goals simp

/-- Settles O38, by the ways a step completes; only the read appends a reply. -/
theorem stepServesTheOldestInput : Obligations.StepServesTheOldestInput := by
  intro s t h
  rcases step_next h with ⟨hi, rfl⟩ | ⟨rest, hi, rfl⟩ | ⟨off, rest, hi, -, -, rfl⟩ | ⟨off, v, rest, hi, -, -, hwrite⟩ |
    ⟨rest, hi, -, rfl⟩
  · exact ⟨rfl, by rw [hi]; rfl, .inl rfl⟩
  · exact ⟨rfl, by rw [hi]; rfl, .inl rfl⟩
  · exact ⟨rfl, by rw [hi]; rfl, .inr ⟨_, s.base + off, 4, by rw [hi]; rfl, rfl⟩⟩
  · obtain ⟨hbase, hinputs, hreplies⟩ := State.regWrite_surroundings hwrite
    exact ⟨hbase, by rw [hinputs, hi]; rfl, .inl hreplies⟩
  · exact ⟨rfl, by rw [hi]; rfl, .inl rfl⟩

/-- A register write draws only as the command START_V2R (20_memory.md R69). -/
theorem State.regWrite_rng {s t : State} {off : Nat} {v : Word} (h : s.regWrite (regAt off) v = .next t)
    (hdraw : off = 0x00 → decode v ≠ .ok .startV2R) :
    t.rngQueued = s.rngQueued ∧ t.rngMore = s.rngMore ∧ t.rngDrawn = s.rngDrawn := by
  rcases State.regWrite_next h with ⟨hcmd, ⟨i, hi, hexec⟩ | ⟨-, rfl⟩⟩ | ⟨-, rfl⟩ | ⟨w, -, ⟨-, rfl⟩ | ⟨-, rfl⟩⟩ |
    ⟨-, -, -, rfl⟩
  · have hne : i ≠ .startV2R := by
      rintro rfl
      exact hdraw (regAt_eq_cmd hcmd) hi
    obtain ⟨-, -, -, hqueued, hmore, hdrawn⟩ := exec_sameSurroundings hexec hne
    exact ⟨hqueued, hmore, hdrawn⟩
  all_goals simp

/-- Settles O39, by the ways a step completes; the abandoned write is START_V2R's too. -/
theorem onlyStartV2RDraws : Obligations.OnlyStartV2RDraws := by
  intro s t h hinput
  rcases step_next h with ⟨-, rfl⟩ | ⟨rest, -, rfl⟩ | ⟨off, rest, -, -, -, rfl⟩ | ⟨off, v, rest, hi, -, -, hwrite⟩ |
    ⟨rest, hi, -, -⟩
  · exact ⟨rfl, rfl, rfl⟩
  · exact ⟨rfl, rfl, rfl⟩
  · exact ⟨rfl, rfl, rfl⟩
  · refine State.regWrite_rng (s := s.withInputs rest) hwrite ?_
    rintro rfl hv
    exact hinput _ (by rw [hi]; rfl) ⟨v, rfl, hv⟩
  · exact absurd ⟨_, rfl, by decide⟩ (hinput _ (by rw [hi]; rfl))

/-- A recorded error outlives every register write but ABORT (60_exceptions.md R238). -/
theorem State.regWrite_err_of_recorded {s t : State} {off : Nat} {v : Word} (h : s.regWrite (regAt off) v = .next t)
    (herr : s.err ≠ .noError) : t.err = s.err ∨ (t.err = .noError ∧ off = 0x00 ∧ decode v = .ok .abort) := by
  cases hraised : raisedBy s.phase off v with
  | none => exact State.regWrite_err_of_raisedBy_eq_none hraised h
  | some c =>
    rw [State.regWrite_of_raisedBy hraised] at h
    injection h with h
    exact .inl (by rw [← h, State.raiseError_err, if_neg herr])

/-- Settles O40, by the ways a step completes. -/
theorem errorStaysUntilAbortOrReset : Obligations.ErrorStaysUntilAbortOrReset := by
  intro s t h herr
  rcases step_next h with ⟨-, rfl⟩ | ⟨rest, hi, rfl⟩ | ⟨off, rest, -, -, -, rfl⟩ | ⟨off, v, rest, hi, -, -, hwrite⟩ |
    ⟨rest, -, -, rfl⟩
  · exact .inl rfl
  · exact .inr ⟨rfl, .rst, by rw [hi]; rfl, .inr rfl⟩
  · exact .inl rfl
  · rcases State.regWrite_err_of_recorded hwrite herr with hkeep | ⟨hclear, rfl, hv⟩
    · exact .inl hkeep
    · exact .inr ⟨hclear, _, by rw [hi]; rfl, .inl ⟨v, rfl, hv⟩⟩
  · exact .inl rfl

end Sys2Proof.Machine

/-! Invariants of every step, by one rule: what holds whenever the elements of the computation are the same, and is kept by every
command, is kept by every step (10_state.md R31, R32; 70_reset_and_hazards.md R274); and the proofs of O42, O43 and O44. -/

namespace Sys2Proof.Machine

/-- The two states agree in the elements that only START, APPEND, FINALIZE, ABORT and reset write (10_state.md R20). -/
structure SameComputation (s t : State) : Prop where
  phase : t.phase = s.phase
  var : t.var = s.var
  st : t.st = s.st
  buf : t.buf = s.buf
  fill : t.fill = s.fill
  len : t.len = s.len
  digest : t.digest = s.digest

theorem State.raiseError_sameComputation (s : State) (c : ErrCode) : SameComputation s (s.raiseError c) := by
  constructor <;> simp

theorem State.writeDin_sameComputation (s : State) (v : Word) : SameComputation s (s.writeDin v) := by
  constructor <;> simp

theorem State.writeSaltWord_sameComputation (s : State) (w : Fin 4) (v : Word) : SameComputation s (s.writeSaltWord w v) := by
  constructor <;> simp

theorem State.reply_withInputs_sameComputation (s : State) (rest : List Input) (v : Word) :
    SameComputation s ((s.withInputs rest).reply v) := by
  constructor <;> simp

theorem State.withInputs_sameComputation (s : State) (rest : List Input) : SameComputation s (s.withInputs rest) := by
  constructor <;> simp

theorem State.takeQueuedBytes_withInputs_sameComputation (s : State) (rest : List Input) :
    SameComputation s (s.withInputs rest).takeQueuedBytes := by
  constructor <;> simp

section
variable {P : State → Prop} (hsame : ∀ {s t}, SameComputation s t → P s → P t)
  (hexec : ∀ {i s t}, P s → exec i s = .next t → P t)
include hsame hexec

theorem State.regWrite_keeps {s t : State} {r : Reg} {v : Word} (hs : P s) (h : s.regWrite r v = .next t) : P t := by
  rcases State.regWrite_next h with ⟨-, ⟨i, -, hi⟩ | ⟨-, rfl⟩⟩ | ⟨-, rfl⟩ | ⟨w, -, ⟨-, rfl⟩ | ⟨-, rfl⟩⟩ | ⟨-, -, -, rfl⟩
  · exact hexec hs hi
  · exact hsame (s.raiseError_sameComputation _) hs
  · exact hsame (s.writeDin_sameComputation v) hs
  · exact hsame (s.raiseError_sameComputation _) hs
  · exact hsame (s.writeSaltWord_sameComputation w v) hs
  · exact hs

/-- The rule: reset does what ABORT does, and everything else is a command or leaves the computation alone. -/
theorem step_keeps {s t : State} (hs : P s) (h : step s = .next t) : P t := by
  rcases step_next h with ⟨-, rfl⟩ | ⟨rest, -, rfl⟩ | ⟨off, rest, -, -, -, rfl⟩ | ⟨off, v, rest, -, -, -, hwrite⟩ |
    ⟨rest, -, -, rfl⟩
  · exact hs
  · exact hexec (i := .abort) (hsame (s.withInputs_sameComputation rest) hs) rfl
  · exact hsame (s.reply_withInputs_sameComputation rest _) hs
  · exact State.regWrite_keeps hsame hexec (hsame (s.withInputs_sameComputation rest) hs) hwrite
  · exact hsame (s.takeQueuedBytes_withInputs_sameComputation _) hs

end

/-! ### The invariant of R31 and R32 -/

theorem State.Inv.of_sameComputation {s t : State} (h : SameComputation s t) (hs : s.Inv) : t.Inv where
  bufZero := by simpa only [h.buf, h.fill] using hs.bufZero
  fillZero := by simpa only [h.phase, h.fill] using hs.fillZero
  v1High := by simpa only [h.var, h.phase, h.st] using hs.v1High

theorem State.AtReset.inv {s : State} (h : s.AtReset) : s.Inv where
  bufZero p hp _ := h.buf p hp
  fillZero _ := h.fill
  v1High _ hphase := absurd h.phase hphase

theorem saltBlock_getElem_high (salt : Vector Byte 16) (p : Nat) (hp : p < 32) (hhi : 16 ≤ p) : (saltBlock salt)[p] = 0 := by
  rw [saltBlock_getElem, dif_neg (Nat.not_lt.mpr hhi)]

/-- A START fills sixteen bytes of the block, and the V1 state is one word (41_padder.md R121; 43_absorb.md R160). -/
theorem State.opened_inv {u : State} (hst : u.var = .v1 → u.st = initV1) : u.startBuffer.openComputation.Inv where
  bufZero := saltBlock_getElem_high u.salt
  fillZero hphase := absurd rfl hphase
  v1High hvar _ k hk h1 := by
    simp only [State.openComputation_st, State.startBuffer_st, hst hvar, initV1_getElem]
    exact if_neg (by omega)

/-- The V1 absorber writes `ST[0]` only (10_state.md R25). -/
theorem absorbBlock_v1_getElem (salt : Vector Byte 16) (B : Vector Byte 32) (st : Vector Word 16) (k : Nat) (hk : k < 16)
    (h1 : 1 ≤ k) : (absorbBlock .v1 salt B st)[k] = st[k] :=
  Vector.getElem_set_ne (by decide) hk (by omega)

theorem State.appendDin_inv {s : State} {n : Nat} (hn : n ≤ 4) (habsorb : s.phase = .absorb) (hs : s.Inv) :
    (s.appendDin n).Inv := by
  obtain ⟨hfill, hwithin, hacross⟩ := s.appendBytes_spec n hn
  have hlt := s.fill.isLt
  refine ⟨fun p hp hle => ?_, fun hphase => absurd (by simp [State.appendDin, habsorb]) hphase, fun hvar hphase k hk h1 => ?_⟩
  · simp only [State.appendDin, State.addLen_fill, State.addLen_buf, hfill] at hle ⊢
    by_cases hfull : s.fill.val + n < 32
    · obtain ⟨-, hbuf⟩ := hwithin hfull
      rw [hbuf p hp, if_neg (by omega)]
      exact hs.bufZero p hp (by omega)
    · obtain ⟨-, hbuf⟩ := hacross (by omega)
      rw [hbuf p hp, if_neg (by omega)]
  · have hv1 : s.var = .v1 := by simpa [State.appendDin] using hvar
    have hhigh := hs.v1High hv1 (by simp [habsorb]) k hk h1
    simp only [State.appendDin, State.addLen_st]
    by_cases hfull : s.fill.val + n < 32
    · obtain ⟨hst, -⟩ := hwithin hfull
      simp only [hst, hhigh]
    · obtain ⟨⟨B, hst, -⟩, -⟩ := hacross (by omega)
      simp only [hst, hv1, absorbBlock_v1_getElem s.salt B s.st k hk h1, hhigh]

theorem State.padFinal_inv {s : State} (hs : s.Inv) : s.padFinal.Inv := by
  by_cases hfill : s.fill = 0
  · rwa [State.padFinal_of_empty hfill]
  · rw [State.padFinal_of_partial hfill]
    refine ⟨fun p hp _ => Vector.getElem_replicate hp, fun _ => rfl, fun hvar hphase k hk h1 => ?_⟩
    have hv1 : s.var = .v1 := hvar
    simp only [State.absorbBuffer_st, hv1, absorbBlock_v1_getElem s.salt s.buf s.st k hk h1]
    exact hs.v1High hv1 hphase k hk h1

/-- The finalizer leaves BUF, and of a V1 state all but `ST[0]` (44_finalize.md R188). -/
theorem State.finalized_inv {s : State} (habsorb : s.phase = .absorb) (hs : s.Inv) :
    s.padFinal.finalizeDigest.closeComputation.Inv where
  bufZero p hp _ := by
    simpa using s.padFinal_inv hs |>.bufZero p hp (by simp)
  fillZero _ := by simp
  v1High hvar _ k hk h1 := by
    have hv1 : s.padFinal.var = .v1 := by simpa using hvar
    rw [State.closeComputation_st, State.finalizeDigest_st_getElem_v1 hv1 k hk h1]
    exact (State.padFinal_inv hs).v1High hv1 (by simp [habsorb]) k hk h1

theorem exec_keeps_inv {i : Instr} {s t : State} (hs : s.Inv) (h : exec i s = .next t) : t.Inv := by
  rcases exec_next h with ⟨-, rfl⟩ | ⟨-, rfl⟩ | ⟨-, rfl⟩ | ⟨-, -, rfl⟩ | ⟨n, -, -, h4, ⟨hphase, rfl⟩ | ⟨-, rfl⟩⟩ |
    ⟨-, ⟨hphase, rfl⟩ | ⟨-, rfl⟩⟩ | ⟨-, rfl⟩
  · exact hs
  · exact State.opened_inv fun _ => rfl
  · exact State.opened_inv nofun
  · exact State.opened_inv nofun
  · exact State.appendDin_inv h4 hphase hs
  · exact hs.of_sameComputation (s.raiseError_sameComputation _)
  · exact State.finalized_inv hphase hs
  · exact hs.of_sameComputation (s.raiseError_sameComputation _)
  · exact s.resetEngine_atReset.inv

/-- Settles O43 by the rule for steps. -/
theorem stepKeepsTheInvariant : Obligations.StepKeepsTheInvariant :=
  fun _ _ => step_keeps State.Inv.of_sameComputation exec_keeps_inv

/-! ### What IDLE and ABSORB leave at 0 -/

theorem State.QuietInv.of_sameComputation {s t : State} (h : SameComputation s t) (hs : s.QuietInv) : t.QuietInv where
  digestZero := by simpa only [h.phase, h.digest] using hs.digestZero
  idleClear := by simpa only [h.phase, h.var, h.len, h.st, h.buf] using hs.idleClear

theorem State.AtReset.quietInv {s : State} (h : s.AtReset) : s.QuietInv where
  digestZero _ := h.digest
  idleClear _ := ⟨h.var, h.len, h.st, h.buf⟩

theorem State.opened_quietInv (u : State) : u.openComputation.QuietInv where
  digestZero _ p hp := Vector.getElem_replicate hp
  idleClear hphase := absurd hphase (by simp)

theorem State.appendDin_quietInv {s : State} {n : Nat} (habsorb : s.phase = .absorb) (hs : s.QuietInv) :
    (s.appendDin n).QuietInv where
  digestZero _ := by simpa [State.appendDin] using hs.digestZero (by simp [habsorb])
  idleClear hphase := absurd hphase (by simp [State.appendDin, habsorb])

theorem State.closed_quietInv (u : State) : u.closeComputation.QuietInv where
  digestZero hphase := absurd rfl hphase
  idleClear hphase := absurd hphase (by simp)

theorem exec_keeps_quietInv {i : Instr} {s t : State} (hs : s.QuietInv) (h : exec i s = .next t) : t.QuietInv := by
  rcases exec_next h with ⟨-, rfl⟩ | ⟨-, rfl⟩ | ⟨-, rfl⟩ | ⟨-, -, rfl⟩ | ⟨n, -, -, -, ⟨hphase, rfl⟩ | ⟨-, rfl⟩⟩ |
    ⟨-, ⟨-, rfl⟩ | ⟨-, rfl⟩⟩ | ⟨-, rfl⟩
  · exact hs
  · exact State.opened_quietInv _
  · exact State.opened_quietInv _
  · exact State.opened_quietInv _
  · exact State.appendDin_quietInv hphase hs
  · exact hs.of_sameComputation (s.raiseError_sameComputation _)
  · exact State.closed_quietInv _
  · exact hs.of_sameComputation (s.raiseError_sameComputation _)
  · exact s.resetEngine_atReset.quietInv

/-- Settles O44 by the rule for steps. -/
theorem stepKeepsIdleQuiet : Obligations.StepKeepsIdleQuiet :=
  fun _ _ => step_keeps State.QuietInv.of_sameComputation exec_keeps_quietInv

/-- Settles O42: both hold at the reset values. -/
theorem invariantsHoldAtReset : Obligations.InvariantsHoldAtReset :=
  ⟨State.reset_atReset.inv, State.reset_atReset.quietInv⟩

end Sys2Proof.Machine

/-! The blocks of a byte list absorbed one after another, as the engine's padder and as the digest functions do it (41_padder.md
R120 to R131; 45_commands.md R208), and the proofs of O46, O47, O48 and O49. -/

namespace Sys2Proof.Machine

theorem pad_append_zeros (salt : Vector Byte 16) (x : List Byte) (k : Nat)
    (h : paddedLength (x.length + k) = paddedLength x.length) : pad salt (x ++ List.replicate k 0) = pad salt x := by
  have hfits := add_le_paddedLength (x.length + k)
  have hzeros : k + (paddedLength x.length - 16 - (x.length + k)) = paddedLength x.length - 16 - x.length := by omega
  simp only [pad, List.length_append, List.length_replicate, h, List.append_assoc, ← List.replicate_add, hzeros]

/-! ### Absorbing blocks -/

/-- The state a computation begins with (43_absorb.md R160, R161). -/
def initState (v : Variant) (salt : Vector Byte 16) : Vector Word 16 :=
  match v with
  | .v1 => initV1
  | .v2 => initV2 salt

/-- `ST` after the first `n` blocks of `B` (41_padder.md R126). -/
def absorbBlocks (v : Variant) (salt : Vector Byte 16) (B : List Byte) (n : Nat) : Vector Word 16 :=
  Nat.fold n (fun m _ st => absorbBlock v salt (blockOf B m) st) (initState v salt)

theorem absorbBlocks_succ (v : Variant) (salt : Vector Byte 16) (B : List Byte) (n : Nat) :
    absorbBlocks v salt B (n + 1) = absorbBlock v salt (blockOf B n) (absorbBlocks v salt B n) := Nat.fold_succ ..

theorem absorbBlocks_append (v : Variant) (salt : Vector Byte 16) (B C : List Byte) (n : Nat) (h : 32 * n ≤ B.length) :
    absorbBlocks v salt (B ++ C) n = absorbBlocks v salt B n :=
  fold_blockOf_congr (absorbBlock v salt) _ _ n (fun m _ => blockOf_append B C m (by omega)) _

theorem absorbBlocks_append_zeros (v : Variant) (salt : Vector Byte 16) (B : List Byte) (k n : Nat) :
    absorbBlocks v salt (B ++ List.replicate k 0) n = absorbBlocks v salt B n :=
  fold_blockOf_congr (absorbBlock v salt) _ _ n (fun m _ => blockOf_append_zeros B k m) _

theorem absorbedState_eq (v : Variant) (salt : Vector Byte 16) (x : List Byte) :
    absorbedState v salt x = absorbBlocks v salt (salt.toList ++ x) ((16 + x.length) / 32) := by
  cases v <;> rfl

/-! ### The padder as it receives an input -/

/-- The part of `State.Absorbing` the padder keeps: the whole blocks of `SALT ++ x` in ST, the rest in BUF (41_padder.md R126). -/
structure State.Holding (s : State) (x : List Byte) : Prop where
  fill : s.fill.val = (16 + x.length) % 32
  buf : s.buf = blockOf (s.salt.toList ++ x) ((16 + x.length) / 32)
  st : s.st = absorbBlocks s.var s.salt (s.salt.toList ++ x) ((16 + x.length) / 32)

theorem State.Absorbing.holding {s : State} {x : List Byte} (h : s.Absorbing x) : s.Holding x :=
  ⟨h.fill, h.buf, h.st.trans (absorbedState_eq _ _ _)⟩

theorem State.Holding.absorbing {s : State} {x : List Byte} (h : s.Holding x) (hphase : s.phase = .absorb)
    (hlen : s.len = BitVec.ofNat 64 x.length) (hsalt : s.var = .v1 → s.salt = v1Salt) : s.Absorbing x :=
  ⟨hphase, hlen, h.fill, h.buf, h.st.trans (absorbedState_eq _ _ _).symm, hsalt⟩

theorem length_salt_append (salt : Vector Byte 16) (x : List Byte) : (salt.toList ++ x).length = 16 + x.length := by simp

/-- The byte joins the current block. -/
theorem State.Holding.buf_set {s : State} {x : List Byte} (h : s.Holding x) (b : Byte) :
    s.buf.set s.fill.val b = blockOf (s.salt.toList ++ (x ++ [b])) ((16 + x.length) / 32) := by
  have hsnoc := blockOf_snoc (s.salt.toList ++ x) b
  simp only [length_salt_append, List.append_assoc] at hsnoc
  simp only [h.buf, h.fill, hsnoc]

/-- The blocks completed before the byte do not see it. -/
theorem State.Holding.st_append {s : State} {x : List Byte} (h : s.Holding x) (b : Byte) :
    s.st = absorbBlocks s.var s.salt (s.salt.toList ++ (x ++ [b])) ((16 + x.length) / 32) := by
  have hlen := length_salt_append s.salt x
  rw [h.st, ← List.append_assoc, absorbBlocks_append _ _ (s.salt.toList ++ x) [b] _ (by omega)]

/-- `append_byte` extends the input by its byte (41_padder.md R122). -/
theorem State.Holding.appendByte {s : State} {x : List Byte} (h : s.Holding x) (b : Byte) :
    (s.appendByte b).Holding (x ++ [b]) := by
  have hfill := h.fill
  have hlen : (x ++ [b]).length = x.length + 1 := by simp
  unfold State.appendByte
  split_ifs with hlt
  · have hblock : (16 + (x.length + 1)) / 32 = (16 + x.length) / 32 := by omega
    refine ⟨?_, ?_, ?_⟩
    · rw [hlen]
      show s.fill.val + 1 = _
      omega
    · rw [hlen, hblock]
      exact h.buf_set b
    · rw [hlen, hblock]
      exact h.st_append b
  · have hblock : (16 + (x.length + 1)) / 32 = (16 + x.length) / 32 + 1 := by omega
    refine ⟨?_, ?_, ?_⟩
    · rw [hlen]
      show 0 = _
      omega
    · rw [hlen, hblock, blockOf_past _ _ (by rw [length_salt_append, hlen]; omega)]
      rfl
    · rw [hlen, hblock, absorbBlocks_succ]
      show absorbBlock s.var s.salt (s.buf.set s.fill.val b) s.st = _
      rw [h.buf_set b, h.st_append b]
      rfl

theorem State.Holding.appendBytes {s : State} {x : List Byte} (h : s.Holding x) (n : Nat) :
    (s.appendBytes n).Holding (x ++ dinBytes s.din n) := by
  induction n with
  | zero => simpa [dinBytes] using h
  | succ n ih =>
    rw [State.appendBytes_succ, State.appendBytes_din, dinBytes_succ, ← List.append_assoc]
    exact ih.appendByte _

/-- `append_din` extends the input by DIN's low bytes (41_padder.md R124). -/
theorem State.Absorbing.appendDin {s : State} {x : List Byte} (h : s.Absorbing x) (n : Nat) :
    (s.appendDin n).Absorbing (x ++ dinBytes s.din n) := by
  obtain ⟨hfill, hbuf, hst⟩ := h.holding.appendBytes n
  refine State.Holding.absorbing ⟨hfill, hbuf, hst⟩ ?_ ?_ ?_
  · simp [State.appendDin, h.phase]
  · simp [State.appendDin, h.len, dinBytes_length, BitVec.ofNat_add]
  · simpa [State.appendDin] using h.salt

theorem saltBlock_eq_blockOf (salt : Vector Byte 16) : saltBlock salt = blockOf salt.toList 0 := by
  ext p hp : 1
  rw [saltBlock_getElem, blockOf_getElem, Nat.mul_zero, Nat.zero_add]
  split_ifs with h
  · rw [List.getD_eq_getElem _ _ (by simpa using h), Vector.getElem_toList]
  · exact (List.getD_eq_default _ _ (by simpa using h)).symm

/-- What every START leaves, once its variant, salt and initial state are set (45_commands.md R201 to R203). -/
theorem State.opened_absorbing {u : State} (hst : u.st = initState u.var u.salt) (hsalt : u.var = .v1 → u.salt = v1Salt) :
    u.startBuffer.openComputation.Absorbing [] := by
  refine State.Holding.absorbing ⟨rfl, ?_, ?_⟩ rfl rfl hsalt
  · simpa using saltBlock_eq_blockOf u.salt
  · exact hst

/-- Settles O47 command by command. -/
theorem startBeginsAnEmptyInput : Obligations.StartBeginsAnEmptyInput := by
  intro s
  refine ⟨⟨_, rfl, State.opened_absorbing rfl fun _ => rfl, rfl⟩, ⟨_, rfl, State.opened_absorbing rfl nofun, rfl, rfl⟩,
    fun hready => ⟨_, exec_startV2R_of_ready hready, State.opened_absorbing rfl nofun, rfl⟩⟩

/-- Settles O48: APPEND in ABSORB is `append_din`. -/
theorem appendExtendsTheInput : Obligations.AppendExtendsTheInput := by
  intro s x n h1 h4 h
  refine ⟨s.appendDin n, exec_append_of_absorb h1 h4 h.phase, h.appendDin n, ?_, ?_⟩
  all_goals simp [State.appendDin]

/-! ### The digest functions -/

/-- `pad_final` completes the padded buffer's last block (41_padder.md R125, R126). -/
theorem State.Holding.padFinal_st {s : State} {x : List Byte} (h : s.Holding x) :
    s.padFinal.st = absorbBlocks s.var s.salt (pad s.salt x) (paddedLength x.length / 32) := by
  have hfill := h.fill
  have hlength : paddedLength x.length = (x.length + 16 + 31) / 32 * 32 := rfl
  rw [pad, absorbBlocks_append_zeros]
  by_cases hzero : s.fill = 0
  · have hval : s.fill.val = 0 := congrArg Fin.val hzero
    rw [State.padFinal_of_empty hzero, h.st, show paddedLength x.length / 32 = (16 + x.length) / 32 by omega]
  · have hval : s.fill.val ≠ 0 := fun hval => hzero (Fin.ext hval)
    rw [State.padFinal_of_partial hzero, show paddedLength x.length / 32 = (16 + x.length) / 32 + 1 by omega,
      absorbBlocks_succ, ← h.buf, ← h.st]
    rfl

/-- `absorb_v1` at a block's offset, where the distance is `j` (43_absorb.md R162; 45_commands.md R208). -/
theorem absorbV1_zero (B : Vector Byte 32) (x : Word) :
    absorbV1 B 0 x = Nat.fold 8 (fun j _ y => mix1 (y ^^^ rotl32 (wordAt B (4 * j) (by omega)) j)) x := by
  simp only [absorbV1, Nat.zero_mod, Nat.add_zero, rotl32_mod]

/-- In V1 the blocks go through `ST[0]` alone (10_state.md R25). -/
theorem absorbBlocks_v1_getElem_zero (salt : Vector Byte 16) (B : List Byte) (n : Nat) :
    (absorbBlocks .v1 salt B n)[0] = Nat.fold n (fun m _ y =>
      Nat.fold 8 (fun j _ y => mix1 (y ^^^ rotl32 (wordAt (blockOf B m) (4 * j) (by omega)) j)) y) constIV := by
  induction n with
  | zero => exact initV1_getElem 0 (by decide)
  | succ n ih =>
    rw [absorbBlocks_succ, Nat.fold_succ, ← ih, ← absorbV1_zero]
    exact Vector.getElem_set_self _

theorem digestV1_eq (x : List Byte) :
    digestV1 x = saltXor v1Salt (serializeV1
      (roundsV1 (absorbBlocks .v1 v1Salt (pad v1Salt x) (paddedLength x.length / 32))[0])) := by
  simp only [absorbBlocks_v1_getElem_zero, roundsV1]
  rfl

theorem digestV2_eq (x : List Byte) (salt : Vector Byte 16) :
    digestV2 x salt = saltXor salt (serializeV2
      (roundsV2 (absorbBlocks .v2 salt (pad salt x) (paddedLength x.length / 32)))) := rfl

/-- Settles O46: the digests read the input through its padded buffer and padded length only. -/
theorem trailingZerosKeepTheDigest : Obligations.TrailingZerosKeepTheDigest := by
  intro salt x k h
  have hpad := fun salt => pad_append_zeros salt x k h
  have hlen : paddedLength (x ++ List.replicate k 0).length = paddedLength x.length := by simpa using h
  exact ⟨hpad salt, by rw [digestV1_eq, hpad, hlen, ← digestV1_eq], by rw [digestV2_eq, hpad, hlen, ← digestV2_eq]⟩

/-- FINALIZE's three operations over the input `x` leave its digest (45_commands.md R205, R208). -/
theorem State.Absorbing.finalized_digest {s : State} {x : List Byte} (h : s.Absorbing x) :
    s.padFinal.finalizeDigest.closeComputation.digest = digestOf s.var s.salt x := by
  have hst := h.holding.padFinal_st
  rw [State.closeComputation_digest]
  cases hvar : s.var with
  | v1 =>
    rw [State.finalizeDigest_v1 (s.padFinal_var.trans hvar), digestOf, digestV1_eq]
    simp only [hst, hvar, State.padFinal_salt, h.salt hvar]
  | v2 =>
    rw [State.finalizeDigest_v2 (s.padFinal_var.trans hvar), digestOf, digestV2_eq]
    simp only [hst, hvar, State.padFinal_salt]

/-- FINALIZE over the input `x` (45_commands.md R205, R208), with what it leaves beside the digest. -/
theorem exec_finalize_of_absorbing {s : State} {x : List Byte} (hs : s.Absorbing x) :
    ∃ t, exec .finalize s = .next t ∧ t.phase = .done ∧ t.len = BitVec.ofNat 64 x.length ∧
      t.digest = digestOf s.var s.salt x ∧ t.salt = s.salt ∧ t.err = s.err :=
  ⟨_, exec_finalize_of_absorb hs.phase, rfl, by simpa using hs.len, hs.finalized_digest, by simp, by simp⟩

/-- Settles O49: FINALIZE in ABSORB pads, finalizes and closes. -/
theorem finalizeLeavesTheDigestOfTheInput : Obligations.FinalizeLeavesTheDigestOfTheInput := by
  intro s x h
  obtain ⟨t, hexec, hphase, hlen, hdigest, -, -⟩ := exec_finalize_of_absorbing h
  exact ⟨t, hexec, hphase, hlen, hdigest⟩

end Sys2Proof.Machine

/-! Runs over a computation's accesses, from START to FINALIZE (45_commands.md R208, R209), and the proofs of O50 and O51. -/

namespace Sys2Proof.Machine

theorem run_one {s t : State} (h : step s = .next t) : Sys2Proof.core.run 1 s = .next t := run_succ 0 h

/-- What fixes a computation's digest function, and the window's place: from START to FINALIZE they stay (10_state.md R33). -/
structure SameSetting (s t : State) : Prop where
  base : t.base = s.base
  var : t.var = s.var
  salt : t.salt = s.salt

theorem SameSetting.trans {s t u : State} (hst : SameSetting s t) (htu : SameSetting t u) : SameSetting s u :=
  ⟨htu.base.trans hst.base, htu.var.trans hst.var, htu.salt.trans hst.salt⟩

theorem State.withInputs_sameSetting (s : State) (rest : List Input) : SameSetting s (s.withInputs rest) := ⟨rfl, rfl, rfl⟩

theorem State.raiseError_sameSetting (s : State) (c : ErrCode) : SameSetting s (s.raiseError c) := by
  constructor <;> simp

theorem State.appendDin_sameSetting (s : State) (n : Nat) : SameSetting s (s.appendDin n) := by
  constructor <;> simp [State.appendDin]

theorem SameComputation.trans {s t u : State} (hst : SameComputation s t) (htu : SameComputation t u) : SameComputation s u :=
  ⟨htu.phase.trans hst.phase, htu.var.trans hst.var, htu.st.trans hst.st, htu.buf.trans hst.buf, htu.fill.trans hst.fill,
    htu.len.trans hst.len, htu.digest.trans hst.digest⟩

theorem State.Absorbing.of_sameComputation {s t : State} {x : List Byte} (hs : s.Absorbing x) (h : SameComputation s t)
    (hsalt : t.salt = s.salt) : t.Absorbing x where
  phase := h.phase.trans hs.phase
  len := h.len.trans hs.len
  fill := by rw [h.fill, hs.fill]
  buf := by rw [h.buf, hsalt, hs.buf]
  st := by rw [h.st, h.var, hsalt, hs.st]
  salt := by simpa only [h.var, hsalt] using hs.salt

/-! ### The bytes an access appends -/

theorem bytesAppended_writeDin (base : Nat) (din v : Word) (l : List Input) :
    bytesAppended base din (.write (base + 0x08) 4 v :: l) = bytesAppended base v l := by
  rw [bytesAppended, if_pos (windowOffset_of_mem base 0x08 (by decide) (by decide))]

theorem bytesAppended_append {v : Word} {n : Nat} (hv : decode v = .ok (.append n)) (base : Nat) (din : Word)
    (l : List Input) : bytesAppended base din (.write base 4 v :: l) = dinBytes din n ++ bytesAppended base din l := by
  have hoff : windowOffset base base 4 = some 0x00 := windowOffset_of_mem base 0x00 (by decide) (by decide)
  simp [bytesAppended, hoff, hv]

theorem bytesAppended_of_not_append {off : Nat} {v : Word} (hlt : off < 0x100) (hmod : off % 4 = 0) (hdin : off ≠ 0x08)
    (hv : off = 0x00 → ∀ n, decode v ≠ .ok (.append n)) (base : Nat) (din : Word) (l : List Input) :
    bytesAppended base din (.write (base + off) 4 v :: l) = bytesAppended base din l := by
  rw [bytesAppended, windowOffset_of_mem base off hlt hmod, if_neg (by simpa using hdin)]
  split_ifs with hoff
  · split
    · rename_i n hn
      exact absurd hn (hv (by simpa using hoff) n)
    · rfl
  · rfl

/-! ### Accesses that stay inside a computation -/

theorem Input.staysInside_read {base addr size : Nat} (h : (Input.read addr size).staysInside base = true) :
    ∃ off, addr = base + off ∧ size = 4 ∧ off < 0x100 ∧ off % 4 = 0 := by
  obtain ⟨off, hoff⟩ := Option.isSome_iff_exists.mp h
  obtain ⟨hsize, haddr, hlt, hmod⟩ := windowOffset_some hoff
  exact ⟨off, haddr, hsize, hlt, hmod⟩

theorem Input.staysInside_write {base addr size : Nat} {v : Word} (h : (Input.write addr size v).staysInside base = true) :
    ∃ off, addr = base + off ∧ size = 4 ∧ off < 0x100 ∧ off % 4 = 0 ∧
      (off = 0x00 → ∀ i, decode v = .ok i → i = .nop ∨ ∃ n, i = .append n) := by
  simp only [Input.staysInside] at h
  cases hoff : windowOffset base addr size with
  | none => simp [hoff] at h
  | some off =>
    obtain ⟨hsize, haddr, hlt, hmod⟩ := windowOffset_some hoff
    refine ⟨off, haddr, hsize, hlt, hmod, ?_⟩
    rintro rfl i hi
    cases i <;> simp_all

/-- A register write in ABSORB, other than to CMD, leaves the computation, its salt among it, and writes DIN or nothing
(20_memory.md R60 to R62). -/
theorem State.regWrite_of_absorb {s : State} {r : Reg} (v : Word) (habsorb : s.phase = .absorb) (hr : r ≠ .cmd) :
    ∃ t, s.regWrite r v = .next t ∧ SameComputation s t ∧ SameSetting s t ∧ t.inputs = s.inputs ∧
      t.din = if r = .din then v else s.din := by
  cases r with
  | cmd => exact absurd rfl hr
  | din => exact ⟨_, rfl, s.writeDin_sameComputation v, ⟨rfl, rfl, rfl⟩, rfl, rfl⟩
  | salt w =>
    refine ⟨_, State.regWrite_salt_of_absorb w v habsorb, s.raiseError_sameComputation _, s.raiseError_sameSetting _, ?_, ?_⟩
    all_goals simp
  | status | digest | state | lenLo | lenHi | reserved =>
    exact ⟨s, rfl, ⟨rfl, rfl, rfl, rfl, rfl, rfl, rfl⟩, ⟨rfl, rfl, rfl⟩, rfl, rfl⟩

/-- From `s`, in a computation over `x`, the access `inp` is one step inside it: it appends some bytes, those `bytesAppended`
counts for it. -/
def State.StepsInside (s : State) (x : List Byte) (inp : Input) (rest : List Input) : Prop :=
  ∃ t ys, step s = .next t ∧ t.inputs = rest ∧ SameSetting s t ∧ t.Absorbing (x ++ ys) ∧
    ∀ l, bytesAppended s.base s.din (inp :: l) = ys ++ bytesAppended s.base t.din l

/-- A step that leaves the computation appends nothing. -/
theorem State.stepsInside_of_sameComputation {s t : State} {x : List Byte} {inp : Input} {rest : List Input}
    (hs : s.Absorbing x) (hstep : step s = .next t) (hrest : t.inputs = rest) (hset : SameSetting s t)
    (hcomp : SameComputation s t)
    (hbytes : ∀ l, bytesAppended s.base s.din (inp :: l) = bytesAppended s.base t.din l) : s.StepsInside x inp rest := by
  refine ⟨t, [], hstep, hrest, hset, ?_, hbytes⟩
  rw [List.append_nil]
  exact hs.of_sameComputation hcomp hset.salt

/-- A CMD write of an illegal word, NOP or APPEND (45_commands.md R209). -/
theorem State.stepsInside_command {s : State} {x : List Byte} {v : Word} {rest : List Input} (hs : s.Absorbing x)
    (hi : s.inputs = .write s.base 4 v :: rest) (hv : ∀ i, decode v = .ok i → i = .nop ∨ ∃ n, i = .append n) :
    s.StepsInside x (.write s.base 4 v) rest := by
  have hset := s.withInputs_sameSetting rest
  have hcomp := s.withInputs_sameComputation rest
  have hquiet (hnot : ∀ n, decode v ≠ .ok (.append n)) (l : List Input) :=
    bytesAppended_of_not_append (off := 0x00) (by decide) (by decide) (by decide) (fun _ => hnot) s.base s.din l
  cases hd : decode v with
  | error e =>
    refine stepsInside_of_sameComputation hs (step_illegal hi hd) (by simp)
      (hset.trans (State.raiseError_sameSetting _ _)) (hcomp.trans (State.raiseError_sameComputation _ _)) fun l => ?_
    rw [State.raiseError_din]
    exact hquiet (by simp [hd]) l
  | ok i =>
    rcases hv i hd with rfl | ⟨n, rfl⟩
    · exact stepsInside_of_sameComputation hs (step_command hi hd rfl) rfl hset hcomp (hquiet (by simp [hd]))
    · obtain ⟨h1, h4⟩ := (wellFormed_append_iff n).mp (decode_wellFormed hd)
      have hs' : (s.withInputs rest).Absorbing x := hs.of_sameComputation hcomp rfl
      refine ⟨_, dinBytes s.din n, step_command hi hd (exec_append_of_absorb h1 h4 hs.phase), ?_,
        hset.trans (State.appendDin_sameSetting _ n), hs'.appendDin n, fun l => ?_⟩
      · simp [State.appendDin]
      · simpa [State.appendDin] using bytesAppended_append hd s.base s.din l

/-- A write to any other register of the window (20_memory.md R60 to R62). -/
theorem State.stepsInside_write {s : State} {x : List Byte} {off : Nat} {v : Word} {rest : List Input} (hs : s.Absorbing x)
    (hi : s.inputs = .write (s.base + off) 4 v :: rest) (hlt : off < 0x100) (hmod : off % 4 = 0) (hoff : off ≠ 0x00) :
    s.StepsInside x (.write (s.base + off) 4 v) rest := by
  obtain ⟨t, hwrite, hcomp, hset, hinputs, hdin⟩ :=
    State.regWrite_of_absorb (s := s.withInputs rest) v hs.phase (mt regAt_eq_cmd hoff)
  have hstep : step s = .next t := by
    rw [step_write hlt hmod hi, hwrite]
    rfl
  refine stepsInside_of_sameComputation hs hstep hinputs ((s.withInputs_sameSetting rest).trans hset)
    ((s.withInputs_sameComputation rest).trans hcomp) fun l => ?_
  by_cases h8 : off = 0x08
  · subst h8
    rw [bytesAppended_writeDin, hdin, if_pos regAt_din]
  · rw [bytesAppended_of_not_append hlt hmod h8 (absurd · hoff), hdin, if_neg (mt regAt_eq_din h8)]
    rfl

theorem stepsInside_of_staysInside {s : State} {x : List Byte} {inp : Input} {rest : List Input} (hs : s.Absorbing x)
    (hin : inp.staysInside s.base = true) (hi : s.inputs = inp :: rest) : s.StepsInside x inp rest := by
  cases inp with
  | rst => cases hin
  | read addr size =>
    obtain ⟨off, rfl, rfl, hlt, hmod⟩ := Input.staysInside_read hin
    exact State.stepsInside_of_sameComputation hs (step_read hlt hmod hi) rfl ⟨rfl, rfl, rfl⟩
      (s.reply_withInputs_sameComputation rest _) fun _ => rfl
  | write addr size v =>
    obtain ⟨off, rfl, rfl, hlt, hmod, hv⟩ := Input.staysInside_write hin
    by_cases hoff : off = 0x00
    · subst hoff
      exact State.stepsInside_command hs hi (hv rfl)
    · exact State.stepsInside_write hs hi hlt hmod hoff

/-- Such accesses append the bytes `bytesAppended` lists (45_commands.md R209). -/
theorem run_of_staysInside {rest : List Input} (accesses : List Input) {s : State} {x : List Byte} (hs : s.Absorbing x)
    (hin : ∀ inp ∈ accesses, inp.staysInside s.base = true) (hi : s.inputs = accesses ++ rest) :
    ∃ t, Sys2Proof.core.run accesses.length s = .next t ∧ t.inputs = rest ∧ SameSetting s t ∧
      t.Absorbing (x ++ bytesAppended s.base s.din accesses) := by
  induction accesses generalizing s x with
  | nil => exact ⟨s, rfl, hi, ⟨rfl, rfl, rfl⟩, by simpa [bytesAppended] using hs⟩
  | cons inp accesses ih =>
    obtain ⟨hinp, hlater⟩ := List.forall_mem_cons.mp hin
    obtain ⟨u, ys, hstep, hinputs, hset, hu, hbytes⟩ := stepsInside_of_staysInside hs hinp hi
    obtain ⟨t, hrun, hrest, hset', ht⟩ := ih hu (by simpa only [hset.base] using hlater) hinputs
    refine ⟨t, (run_succ _ hstep).trans hrun, hrest, hset.trans hset', ?_⟩
    rw [hbytes, ← List.append_assoc, ← hset.base]
    exact ht

/-! ### From START to FINALIZE -/

theorem step_of_isCommand {s t : State} {i : Instr} {inp : Input} {rest : List Input} (hinp : inp.isCommand s.base i)
    (hi : s.inputs = inp :: rest) (h : exec i (s.withInputs rest) = .next t) : step s = .next t := by
  obtain ⟨v, rfl, hv⟩ := hinp
  exact step_command hi hv h

/-- A computation run from its START, which leaves `u`, to its FINALIZE. -/
theorem run_computation {s u : State} {start : Instr} {first last : Input} {accesses rest : List Input}
    (hfirst : first.isCommand s.base start) (hlast : last.isCommand s.base .finalize)
    (hin : ∀ inp ∈ accesses, inp.staysInside s.base = true) (hi : s.inputs = first :: (accesses ++ last :: rest))
    (hexec : exec start (s.withInputs (accesses ++ last :: rest)) = .next u) (hu : u.Absorbing []) (hdin : u.din = s.din) :
    ∃ t, Sys2Proof.core.run (accesses.length + 2) s = .next t ∧ t.inputs = rest ∧ t.phase = .done ∧
      t.len = BitVec.ofNat 64 (bytesAppended s.base s.din accesses).length ∧
      t.digest = digestOf u.var u.salt (bytesAppended s.base s.din accesses) ∧ t.salt = u.salt := by
  obtain ⟨hbase, hinputs, -⟩ := exec_surroundings hexec
  have hbase : u.base = s.base := hbase
  obtain ⟨w, hrun, hrest, hset, hw⟩ := run_of_staysInside accesses hu (by rwa [hbase]) hinputs
  rw [List.nil_append, hbase, hdin] at hw
  have hw' : (w.withInputs rest).Absorbing _ := hw.of_sameComputation (w.withInputs_sameComputation rest) rfl
  obtain ⟨t, hfinal, hphase, hlen, hdigest, hsalt, -⟩ := exec_finalize_of_absorbing hw'
  obtain ⟨-, hdone, -⟩ := exec_surroundings hfinal
  have hlast' : last.isCommand w.base .finalize := by rwa [hset.base, hbase]
  refine ⟨t, ?_, hdone, hphase, hlen, ?_, hsalt.trans hset.salt⟩
  · calc Sys2Proof.core.run (accesses.length + 2) s
        = Sys2Proof.core.run (accesses.length + 1) u := run_succ _ (step_of_isCommand hfirst hi hexec)
      _ = Sys2Proof.core.run 1 w := run_add _ _ hrun
      _ = .next t := run_one (step_of_isCommand hlast' hrest hfinal)
  · rw [hdigest, ← hset.var, ← hset.salt]
    rfl

/-- Settles O50: each START opens a computation over the empty input, which runs to its FINALIZE. -/
theorem anyAccessSequenceLeavesTheDigest : Obligations.AnyAccessSequenceLeavesTheDigest := by
  intro s start first last accesses rest hfirst hlast hin hi hstart
  rcases hstart with rfl | rfl | ⟨rfl, hready⟩
  · obtain ⟨t, hrun, hrest, hphase, hlen, hdigest, -⟩ :=
      run_computation hfirst hlast hin hi rfl (State.opened_absorbing rfl fun _ => rfl) rfl
    exact ⟨t, hrun, hrest, hphase, hlen, fun _ => hdigest, nofun, nofun⟩
  · obtain ⟨t, hrun, hrest, hphase, hlen, hdigest, -⟩ :=
      run_computation hfirst hlast hin hi rfl (State.opened_absorbing rfl nofun) rfl
    exact ⟨t, hrun, hrest, hphase, hlen, nofun, fun _ => hdigest, nofun⟩
  · have hexec := exec_startV2R_of_ready (s := s.withInputs (accesses ++ last :: rest)) hready
    obtain ⟨t, hrun, hrest, hphase, hlen, hdigest, hsalt⟩ :=
      run_computation hfirst hlast hin hi hexec (State.opened_absorbing rfl nofun) rfl
    refine ⟨t, hrun, hrest, hphase, hlen, nofun, nofun, fun _ => ⟨?_, fun b hb => ?_⟩⟩
    · rw [hsalt]
      exact hdigest
    · simp only [hsalt]
      exact State.drawnSalt_getElem _ b hb

/-- Settles O51: by O50 either run ends with the V1 digest of the bytes appended. -/
theorem digestIgnoresTheSplit : Obligations.DigestIgnoresTheSplit := by
  intro s t s' t' first last first' last' accesses accesses' rest rest' hfirst hlast hfirst' hlast' hin hin' hi hi' hbytes
    hrun hrun'
  obtain ⟨u, hu, -, -, -, hdigest, -⟩ :=
    anyAccessSequenceLeavesTheDigest s .startV1 first last accesses rest hfirst hlast hin hi (.inl rfl)
  obtain ⟨u', hu', -, -, -, hdigest', -⟩ :=
    anyAccessSequenceLeavesTheDigest s' .startV1 first' last' accesses' rest' hfirst' hlast' hin' hi' (.inl rfl)
  obtain rfl : u = t := by injection hu.symm.trans hrun
  obtain rfl : u' = t' := by injection hu'.symm.trans hrun'
  rw [hdigest rfl, hdigest' rfl, hbytes]

end Sys2Proof.Machine

/-! The host-program operations as runs, and HASH assembled from them (30_encoding.md R87, R88; 45_commands.md R208), and the proof
of O52. -/

namespace Sys2Proof.Machine

/-! ### Single accesses -/

theorem step_wr {s t : State} {r : Reg} {v : Word} {rest : List Input} (hi : s.inputs = wr s.base r v :: rest)
    (h : (s.withInputs rest).regWrite r v = .next t) : step s = .next t := by
  rw [step_write r.offset_lt r.offset_mod_four hi, regAt_offset, h]
  rfl

theorem step_rd {s : State} {r : Reg} {rest : List Input} (hi : s.inputs = rd s.base r :: rest) :
    step s = .next ((s.withInputs rest).reply (s.regRead r)) := by
  rw [step_read r.offset_lt r.offset_mod_four hi, regAt_offset]

theorem step_issue {s t : State} {i : Instr} {rest : List Input} (hi : s.inputs = issue s.base i :: rest)
    (hwf : WellFormed i) (h : exec i (s.withInputs rest) = .next t) : step s = .next t :=
  step_command hi (decode_encode hwf) h

/-! ### FEED -/

/-- ERR and the replies are as they were. -/
structure SameRecord (s t : State) : Prop where
  err : t.err = s.err
  replies : t.replies = s.replies

theorem SameRecord.trans {s t u : State} (hst : SameRecord s t) (htu : SameRecord t u) : SameRecord s u :=
  ⟨htu.err.trans hst.err, htu.replies.trans hst.replies⟩

/-- APPEND takes the bytes a chunk was made of (20_memory.md R52; 41_padder.md R124). -/
theorem dinBytes_le32 (a b c d : Byte) {n : Nat} (h : n ≤ 4) : dinBytes (le32 a b c d) n = [a, b, c, d].take n := by
  obtain ⟨h0, h1, h2, h3⟩ := wordByte_le32 a b c d
  interval_cases n <;> simp [dinBytes, List.range_succ, h0, h1, h2, h3]

/-- One chunk of FEED: its word to DIN, then APPEND. -/
theorem run_feedChunk {s : State} {x : List Byte} {v : Word} {n : Nat} {rest : List Input} (hs : s.Absorbing x) (h1 : 1 ≤ n)
    (h4 : n ≤ 4) (hi : s.inputs = wr s.base .din v :: issue s.base (.append n) :: rest) :
    ∃ t, Sys2Proof.core.run 2 s = .next t ∧ t.inputs = rest ∧ SameSetting s t ∧ SameRecord s t ∧
      t.Absorbing (x ++ dinBytes v n) := by
  have hwrite := step_wr hi (State.regWrite_din _ v)
  have hu : ((s.withInputs rest).writeDin v).Absorbing x :=
    hs.of_sameComputation ((s.withInputs_sameComputation rest).trans (State.writeDin_sameComputation _ v)) rfl
  have happend := step_issue (s := (s.withInputs (issue s.base (.append n) :: rest)).writeDin v) rfl
    ((wellFormed_append_iff n).mpr ⟨h1, h4⟩) (exec_append_of_absorb (s := (s.withInputs rest).writeDin v) h1 h4 hs.phase)
  refine ⟨_, (run_succ 1 hwrite).trans (run_one happend), ?_, ⟨?_, ?_, ?_⟩, ⟨?_, ?_⟩, hu.appendDin n⟩
  all_goals simp [State.appendDin]

/-- FEED appends its bytes (30_encoding.md R88), by the recursion of `feed`. -/
theorem run_feed {base : Nat} {rest : List Input} (y : List Byte) {s : State} {x : List Byte} (hs : s.Absorbing x)
    (hbase : s.base = base) (hi : s.inputs = feed base y ++ rest) :
    ∃ t, Sys2Proof.core.run (feed base y).length s = .next t ∧ t.inputs = rest ∧ SameSetting s t ∧ SameRecord s t ∧
      t.Absorbing (x ++ y) := by
  subst hbase
  induction y using feed.induct generalizing s x with
  | case1 => exact ⟨s, rfl, hi, ⟨rfl, rfl, rfl⟩, ⟨rfl, rfl⟩, by simpa using hs⟩
  | case2 a =>
    have h := run_feedChunk hs (by decide) (by decide) hi
    rw [dinBytes_le32 _ _ _ _ (by decide)] at h
    exact h
  | case3 a b =>
    have h := run_feedChunk hs (by decide) (by decide) hi
    rw [dinBytes_le32 _ _ _ _ (by decide)] at h
    exact h
  | case4 a b c =>
    have h := run_feedChunk hs (by decide) (by decide) hi
    rw [dinBytes_le32 _ _ _ _ (by decide)] at h
    exact h
  | case5 a b c d y ih =>
    obtain ⟨u, hrun, hinputs, hset, hrec, hu⟩ := run_feedChunk hs (by decide) (by decide) hi
    rw [dinBytes_le32 _ _ _ _ (le_refl 4)] at hu
    obtain ⟨t, hrun', hrest, hset', hrec', ht⟩ := ih hu (by rwa [hset.base])
    refine ⟨t, ?_, hrest, hset.trans hset', hrec.trans hrec', by simpa using ht⟩
    rw [feed, List.length_cons, List.length_cons, Nat.add_assoc, Nat.add_comm, run_add _ _ hrun, ← hset.base, hrun']

/-! ### READDIGEST and SETSALT -/

theorem State.regRead_reply_withInputs (s : State) (rest : List Input) (v : Word) :
    ((s.withInputs rest).reply v).regRead = s.regRead := by
  funext r
  cases r <;> rfl

/-- Reads reply with their registers and leave the rest. -/
theorem run_reads {rest : List Input} (l : List Reg) {s : State} (hi : s.inputs = l.map (rd s.base) ++ rest) :
    ∃ t, Sys2Proof.core.run l.length s = .next t ∧ t.inputs = rest ∧ t.err = s.err ∧
      t.replies = s.replies ++ l.map s.regRead := by
  induction l generalizing s with
  | nil => exact ⟨s, rfl, hi, rfl, by simp⟩
  | cons r l ih =>
    obtain ⟨t, hrun, hrest, herr, hreplies⟩ :=
      ih (s := (s.withInputs (l.map (rd s.base) ++ rest)).reply (s.regRead r)) rfl
    refine ⟨t, (run_succ _ (step_rd hi)).trans hrun, hrest, herr, ?_⟩
    simp only [hreplies, State.reply_replies, State.withInputs_replies, State.regRead_reply_withInputs, List.append_assoc,
      List.map_cons, List.singleton_append]

/-- The state after the words `l` of `salt` are written to their SALT registers. -/
def State.copySaltWords (s : State) (salt : Vector Byte 16) (l : List (Fin 4)) : State :=
  l.foldl (fun t w => t.writeSaltWord w (wordAt salt (4 * w.val) (by omega))) s

theorem State.copySaltWords_cons (s : State) (salt : Vector Byte 16) (w : Fin 4) (l : List (Fin 4)) :
    s.copySaltWords salt (w :: l) = (s.writeSaltWord w (wordAt salt (4 * w.val) (by omega))).copySaltWords salt l := rfl

theorem State.copySaltWords_frame (s : State) (salt : Vector Byte 16) (l : List (Fin 4)) :
    (s.copySaltWords salt l).inputs = s.inputs ∧ (s.copySaltWords salt l).base = s.base ∧
      SameRecord s (s.copySaltWords salt l) := by
  induction l generalizing s with
  | nil => exact ⟨rfl, rfl, rfl, rfl⟩
  | cons w l ih =>
    obtain ⟨hinputs, hbase, herr, hreplies⟩ := ih (s.writeSaltWord w (wordAt salt (4 * w.val) (by omega)))
    exact ⟨hinputs, hbase, herr, hreplies⟩

/-- Copying a word from one array to the same place of another copies its four bytes. -/
theorem setWordAt_wordAt_getElem {n : Nat} (B C : Vector Byte n) (p : Nat) (h : p + 4 ≤ n) (q : Nat) (hq : q < n) :
    (setWordAt B p (wordAt C p h) h)[q] = if p ≤ q ∧ q < p + 4 then C[q] else B[q] := by
  rw [setWordAt_getElem]
  split_ifs with hin
  · obtain ⟨b, rfl⟩ := Nat.exists_eq_add_of_le hin.1
    rw [Nat.add_sub_cancel_left, wordByte_wordAt C p h b (by omega)]
  · rfl

theorem State.copySaltWords_salt_getElem (s : State) (salt : Vector Byte 16) (l : List (Fin 4)) (p : Nat) (hp : p < 16) :
    (s.copySaltWords salt l).salt[p] = if ∃ w ∈ l, w.val = p / 4 then salt[p] else s.salt[p] := by
  induction l generalizing s with
  | nil => simp [State.copySaltWords]
  | cons w l ih =>
    simp only [State.copySaltWords_cons, ih, State.writeSaltWord_salt, setWordAt_wordAt_getElem, List.exists_mem_cons_iff]
    have hword : 4 * w.val ≤ p ∧ p < 4 * w.val + 4 ↔ w.val = p / 4 := by omega
    by_cases hl : ∃ w ∈ l, w.val = p / 4
    · simp only [hl, or_true, if_true]
    · simp only [hl, or_false, if_false, hword]

theorem State.copySaltWords_salt (s : State) (salt : Vector Byte 16) :
    (s.copySaltWords salt (List.finRange 4)).salt = salt := by
  ext p hp : 1
  rw [State.copySaltWords_salt_getElem, if_pos ⟨⟨p / 4, by omega⟩, List.mem_finRange _, rfl⟩]

/-- Outside ABSORB the SALT registers take what is written to them. -/
theorem run_saltWrites {salt : Vector Byte 16} {rest : List Input} (l : List (Fin 4)) {s : State} (hphase : s.phase ≠ .absorb)
    (hi : s.inputs = l.map (fun w => wr s.base (.salt w) (wordAt salt (4 * w.val) (by omega))) ++ rest) :
    Sys2Proof.core.run l.length s = .next ((s.withInputs rest).copySaltWords salt l) := by
  induction l generalizing s with
  | nil =>
    subst hi
    rfl
  | cons w l ih =>
    have hstep := step_wr hi (State.regWrite_salt_of_not_absorb _ _ hphase)
    exact (run_succ _ hstep).trans (ih hphase rfl)

/-- SETSALT leaves its salt (30_encoding.md R88). -/
theorem run_setSalt {s : State} {salt : Vector Byte 16} {rest : List Input} (hphase : s.phase ≠ .absorb)
    (hi : s.inputs = setSalt s.base salt ++ rest) :
    ∃ t, Sys2Proof.core.run 4 s = .next t ∧ t.inputs = rest ∧ t.base = s.base ∧ SameRecord s t ∧ t.salt = salt := by
  have hrun := run_saltWrites (List.finRange 4) hphase hi
  rw [List.length_finRange] at hrun
  obtain ⟨hinputs, hbase, hrec⟩ := (s.withInputs rest).copySaltWords_frame salt (List.finRange 4)
  exact ⟨_, hrun, hinputs, hbase, ⟨hrec.err, hrec.replies⟩, State.copySaltWords_salt _ salt⟩

/-! ### HASH -/

/-- HASH from its START on, which leaves `u`. -/
theorem run_hash {s u : State} {start : Instr} {x : List Byte} {rest : List Input} (hwf : WellFormed start)
    (hi : s.inputs = issue s.base start :: (feed s.base x ++ issue s.base .finalize :: (readDigest s.base ++ rest)))
    (hexec : exec start (s.withInputs (feed s.base x ++ issue s.base .finalize :: (readDigest s.base ++ rest))) = .next u)
    (hu : u.Absorbing []) (herr : u.err = s.err) :
    ∃ t, Sys2Proof.core.run ((feed s.base x).length + 10) s = .next t ∧ t.inputs = rest ∧ t.err = s.err ∧
      t.replies = s.replies ++ (List.finRange 8).map fun w => wordAt (digestOf u.var u.salt x) (4 * w.val) (by omega) := by
  obtain ⟨hbase, hinputs, hreplies⟩ := exec_surroundings hexec
  have hbase : u.base = s.base := hbase
  obtain ⟨w, hfeed, hrest, hset, hrec, hw⟩ := run_feed x hu hbase hinputs
  rw [List.nil_append] at hw
  have hw' : (w.withInputs (readDigest s.base ++ rest)).Absorbing x :=
    hw.of_sameComputation (w.withInputs_sameComputation _) rfl
  obtain ⟨v, hfinal, -, -, hdigest, -, herr'⟩ := exec_finalize_of_absorbing hw'
  obtain ⟨hbase', hdone, hreplies'⟩ := exec_surroundings hfinal
  have hwbase : w.base = s.base := hset.base.trans hbase
  have hvbase : v.base = s.base := hbase'.trans hwbase
  obtain ⟨t, hreads, hleft, herr'', hreplies''⟩ := run_reads (s := v) (rest := rest) ((List.finRange 8).map .digest)
    (by rw [hdone, hvbase, readDigest, List.map_map]; rfl)
  refine ⟨t, ?_, hleft, ?_, ?_⟩
  · calc Sys2Proof.core.run ((feed s.base x).length + 10) s
        = Sys2Proof.core.run ((feed s.base x).length + 9) u := run_succ _ (step_issue hi hwf hexec)
      _ = Sys2Proof.core.run 9 w := run_add _ _ hfeed
      _ = Sys2Proof.core.run 8 v := run_succ _ (step_issue (by rw [hrest, hwbase]) (by decide) hfinal)
      _ = .next t := hreads
  · exact herr''.trans (herr'.trans (hrec.err.trans herr))
  · have hreplied : v.replies = s.replies := hreplies'.trans (hrec.replies.trans hreplies)
    have hdigest' : v.digest = digestOf u.var u.salt x := by
      rw [hdigest, ← hset.var, ← hset.salt]
      rfl
    rw [hreplies'', hreplied, List.map_map, ← hdigest']
    rfl

/-- Settles O52: START_V1, or SETSALT and START_V2, then `run_hash`. -/
theorem hashReturnsTheDigest : Obligations.HashReturnsTheDigest := by
  intro s salt x rest
  refine ⟨fun hi => ?_, fun hphase hi => ?_⟩
  · have hlength : (hashV1 s.base x).length = (feed s.base x).length + 10 := by simp [hashV1, readDigest]
    rw [hlength]
    obtain ⟨t, hrun, hrest, herr, hreplies⟩ := run_hash (s := s) (x := x) (rest := rest) (start := .startV1) (by decide)
      (by simpa [hashV1] using hi) rfl (State.opened_absorbing rfl fun _ => rfl) rfl
    exact ⟨t, hrun, hrest, herr, hreplies⟩
  · have hlength : (hashV2 s.base salt x).length = 4 + ((feed s.base x).length + 10) := by
      simp [hashV2, setSalt, readDigest]
      omega
    rw [hashV2, List.append_assoc] at hi
    obtain ⟨u, hsalted, hinputs, hbase, hrec, hsalt⟩ := run_setSalt hphase hi
    obtain ⟨t, hrun, hrest, herr, hreplies⟩ := run_hash (s := u) (x := x) (rest := rest) (start := .startV2) (by decide)
      (by simpa [hbase] using hinputs) rfl (State.opened_absorbing rfl nofun) rfl
    refine ⟨t, ?_, hrest, herr.trans hrec.err, ?_⟩
    · rw [hlength, run_add 4 _ hsalted, ← hbase, hrun]
    · rw [hreplies, hrec.replies, ← hsalt]
      rfl

end Sys2Proof.Machine
